-- ==== Sys2Proof/Word.lean ====
section
/-! DEFINITION. The value types of BFCORE (spec 00_scope.md R6, R8): 8-bit bytes, 32-bit words and 64-bit blocks. -/

namespace Sys2Proof

/-- One byte of data memory, of the key buffer, or of a block (R6). -/
abbrev Byte := BitVec 8

/-- A 32-bit word: a register, a box entry, a block half or a data-memory address (R6). -/
abbrev Word := BitVec 32

/-- A 64-bit block; byte 0 is the most significant byte (R10). -/
abbrev Block := BitVec 64

end Sys2Proof
end

