-- ==== Sys2Proof/Syntax.lean ====
section
/-! DEFINITION. The syntax of BFCORE: the 17 commands (spec 30_encoding.md R73), the command word (R70), the registers of
the window (10_state.md R23), the events that reach the machine from outside (10_state.md R20, 70_reset_and_hazards.md
R250) and the host assembly language (30_encoding.md R78, R79). -/

namespace Sys2Proof

/-- The commands, one constructor per row of `spec/opcode_table.json`, in the order of R73. A command has no operand
field (R71): its operands are registers. -/
inductive Instr where
  /-- `NOP` (42_weak_key_and_zeroize.md R154) -/
  | nop
  /-- `KEYSCHED` (40_key_schedule.md R103) -/
  | keysched
  /-- `ENC_BLK` (41_block_transform.md R125) -/
  | encBlk
  /-- `DEC_BLK` (R126) -/
  | decBlk
  /-- `ENC_BUF` (R127) -/
  | encBuf
  /-- `DEC_BUF` (R128) -/
  | decBuf
  /-- `WEAKCHK` (42_weak_key_and_zeroize.md R150) -/
  | weakchk
  /-- `ZEROIZE` (R152) -/
  | zeroize
  /-- `CV_LOAD` (43_cbc.md R171) -/
  | cvLoad
  /-- `CV_STORE` (R172) -/
  | cvStore
  /-- `CBC_ENC_BLK` (R173) -/
  | cbcEncBlk
  /-- `CBC_DEC_BLK` (R174) -/
  | cbcDecBlk
  /-- `CBC_ENC_BUF` (R175) -/
  | cbcEncBuf
  /-- `CBC_DEC_BUF` (R176) -/
  | cbcDecBuf
  /-- `PAD_BLK` (44_padding.md R200) -/
  | padBlk
  /-- `UNPAD_STRICT` (R201) -/
  | unpadStrict
  /-- `UNPAD_LENIENT` (R202) -/
  | unpadLenient
deriving DecidableEq, Repr

/-- The two fields of a command word (R70). -/
structure CommandWord where
  /-- bits 31:8, reserved -/
  rsvd : BitVec 24
  /-- bits 7:0, the operation code -/
  opc  : Byte
deriving DecidableEq, Repr

/-- The sixteen registers of the window, in the order of their offsets (10_state.md R23). -/
inductive Reg where
  | cmd | status | src | dst | len | result | dinHi | dinLo | doutHi | doutLo | cvHi | cvLo | id | faddr
  /-- reserved offset 0x38 (R35) -/
  | rsvd38
  /-- reserved offset 0x3C (R35) -/
  | rsvd3C
deriving DecidableEq, Repr

/-- What can reach the machine from outside, one a step: the host's accesses (10_state.md R20) and the platform's reset
(70_reset_and_hazards.md R250). -/
inductive Event where
  /-- A host write of `value`, `width` bits wide, to host address `addr`. -/
  | regWrite (addr : Word) (width : Nat) (value : Word)
  /-- A host read, `width` bits wide, of host address `addr`. -/
  | regRead (addr : Word) (width : Nat)
  /-- The host's own write of bytes to data memory from `addr` upward (30_encoding.md R78, `mem`). -/
  | memWrite (addr : Word) (bytes : List Byte)
  /-- The host's own read of `count` bytes of data memory from `addr` upward (10_state.md R20). -/
  | memRead (addr : Word) (count : Nat)
  /-- The platform asserts reset between two accesses (R250). -/
  | reset
  /-- The platform asserts reset while the command that the host wrote as `value` is running, after the command has
  written `blocks` whole blocks of data memory (R250). -/
  | resetDuring (value : Word) (blocks : Nat)
deriving DecidableEq, Repr

/-- The statements of the host assembly language (R78). -/
inductive Asm where
  /-- `wr REG, imm32` -/
  | wr (r : Reg) (imm : Word)
  /-- `rd REG` -/
  | rd (r : Reg)
  /-- `cmd MNEMONIC` -/
  | cmd (i : Instr)
  /-- `mem addr, hexbytes` -/
  | mem (addr : Word) (bytes : List Byte)
deriving DecidableEq, Repr

/-- The pseudo-instructions of the host assembly language (R79). -/
inductive Pseudo where
  | keysched (src len : Word)
  | setcv (v : Block)
  | getcv
  | setdin (v : Block)
  | getdout
  | encBlk (v : Block)
  | decBlk (v : Block)
  | cbcEncBlk (v : Block)
  | cbcDecBlk (v : Block)
  | encBuf (src dst len : Word)
  | decBuf (src dst len : Word)
  | cbcEncBuf (src dst len : Word)
  | cbcDecBuf (src dst len : Word)
  | cvLoad (src : Word)
  | cvStore (dst : Word)
  | padBlk (v : Block) (count : Word)
  | unpadStrict (v : Block)
  | unpadLenient (v : Block) (len : Word)
  | check
deriving DecidableEq, Repr

end Sys2Proof
end

