-- ==== Sys2Proof/WellFormed.lean ====
section
/-! DEFINITION. What is well formed: a command word (spec 30_encoding.md R74) and a host access to the register window
(10_state.md R22). A command has no operand field (R71), so every term of `Instr` is well formed; that its command word
is so too is a lemma (`Sys2Proof.encode_wf`). -/

namespace Sys2Proof

/-- The largest operation code of the opcode map (R73). -/
def lastOpcode : Byte := 0x10#8

/-- A command word is legal: `RSVD` is zero and `OPC` is in the map (R74). -/
def CommandWord.wf (c : CommandWord) : Bool := c.rsvd == 0#24 && decide (c.opc ≤ lastOpcode)

/-- A register access the window takes: 32 bits wide, at an offset that is a multiple of 4 (10_state.md R22). -/
def accessWf (offset : Word) (width : Nat) : Bool := width == 32 && offset.toNat % 4 == 0

/-- A command has no operand that could be ill formed (R71). -/
def Instr.wf : Instr → Bool := fun _ => true

end Sys2Proof
end

