-- ==== Sys2Proof/Decode.lean ====
section
/-! DEFINITION. Decoding a command word (spec 30_encoding.md R70, R73, R74, R76), and the encoder, written from the same
opcode map. -/

namespace Sys2Proof

/-- Why a command word is illegal (R74). -/
inductive Illegal where
  /-- `RSVD != 0`, whatever the `OPC` -/
  | reservedNotZero
  /-- `OPC` in 0x11 … 0xFF -/
  | opcodeUnassigned
deriving DecidableEq, Repr

/-- The fields of a command word (R70). -/
def CommandWord.ofWord (v : Word) : CommandWord where
  rsvd := v.extractLsb' 8 24
  opc  := v.extractLsb' 0 8

/-- The command word of two fields (R70). -/
def CommandWord.toWord (c : CommandWord) : Word := c.rsvd ++ c.opc

/-- The opcode map, read by operation code (R73). -/
def Instr.ofOpcode : Byte → Option Instr
  | 0x00#8 => some .nop
  | 0x01#8 => some .keysched
  | 0x02#8 => some .encBlk
  | 0x03#8 => some .decBlk
  | 0x04#8 => some .encBuf
  | 0x05#8 => some .decBuf
  | 0x06#8 => some .weakchk
  | 0x07#8 => some .zeroize
  | 0x08#8 => some .cvLoad
  | 0x09#8 => some .cvStore
  | 0x0A#8 => some .cbcEncBlk
  | 0x0B#8 => some .cbcDecBlk
  | 0x0C#8 => some .cbcEncBuf
  | 0x0D#8 => some .cbcDecBuf
  | 0x0E#8 => some .padBlk
  | 0x0F#8 => some .unpadStrict
  | 0x10#8 => some .unpadLenient
  | _ => none

/-- Decoding, total on every 32-bit value. `RSVD` is checked before `OPC`, as R76 writes the two checks. -/
def decode (v : Word) : Except Illegal Instr :=
  if (CommandWord.ofWord v).rsvd ≠ 0#24 then .error .reservedNotZero
  else match Instr.ofOpcode (CommandWord.ofWord v).opc with
    | some i => .ok i
    | none => .error .opcodeUnassigned

/-- The opcode map, read by command (R73). -/
def Instr.opcode : Instr → Byte
  | .nop => 0x00#8
  | .keysched => 0x01#8
  | .encBlk => 0x02#8
  | .decBlk => 0x03#8
  | .encBuf => 0x04#8
  | .decBuf => 0x05#8
  | .weakchk => 0x06#8
  | .zeroize => 0x07#8
  | .cvLoad => 0x08#8
  | .cvStore => 0x09#8
  | .cbcEncBlk => 0x0A#8
  | .cbcDecBlk => 0x0B#8
  | .cbcEncBuf => 0x0C#8
  | .cbcDecBuf => 0x0D#8
  | .padBlk => 0x0E#8
  | .unpadStrict => 0x0F#8
  | .unpadLenient => 0x10#8

/-- The command word of a command: `RSVD` zero, `OPC` from the map (R70, R73). -/
def encode (i : Instr) : Word := CommandWord.toWord { rsvd := 0#24, opc := i.opcode }

/-- What the decoder reads from an instruction given as the opcode table numbers its bits. A command word is the one
32-bit value of a host write (R70), so there is no second word; bits above `nbits` are zero. -/
def decodeTableWord (nbits w : Nat) : Option Instr :=
  if w < 2 ^ 32 then (decode (BitVec.ofNat 32 (w % 2 ^ nbits))).toOption else none

end Sys2Proof
end

