-- ==== Sys2Proof/Config.lean ====
section
/-! DEFINITION. The fixed parameters of BFCORE (spec 00_scope.md R6) and the parameters left to the platform (R7):
where the register window sits and which data-memory bytes the core may access. -/

namespace Sys2Proof

/-- `MAXKEYLENGTH` in bytes (R6). -/
def maxKeyLength : Nat := 56

/-- `BLOCKSIZE` in bytes (R6). -/
def blockSize : Nat := 8

/-- The number of 32-bit P-box words (R6). -/
def pBoxLength : Nat := 18

/-- The size of the register window in bytes (20_memory.md R50, 10_state.md R22). -/
def windowSize : Nat := 64

/-- A range of data-memory addresses, both ends included. -/
structure Region where
  first : Word
  last  : Word
deriving DecidableEq, Repr

/-- Does the region hold the address `a`? -/
def Region.holds (r : Region) (a : Word) : Bool := decide (r.first ≤ a) && decide (a ≤ r.last)

/-- What the platform fixes for a run (R7). It is data, so that a statement about every state holds for EVERY base and
EVERY admission map: any `MEM_ADMIT : Addr32 → Bool` is a list of ranges. No rule of the machine writes it. -/
structure Config where
  /-- `BFCORE_BASE`: the host address of the register window (10_state.md R22). -/
  base  : Word
  /-- `MEM_ADMIT` as the list of the admitted ranges (20_memory.md R51). -/
  admitted : List Region
deriving DecidableEq, Repr

/-- `MEM_ADMIT(a)`: may the core's bus-master port access byte address `a` (R51)? -/
def Config.admits (c : Config) (a : Word) : Bool := c.admitted.any (fun r => r.holds a)

end Sys2Proof
end

