-- ==== Sys2Proof/Machine/State.lean ====
section
/-! DEFINITION. The state of BFCORE as plain data (spec 10_state.md R43), its value after reset (R44), and the reasons a
step could stop. -/

namespace Sys2Proof.Machine

/-- The life-cycle state (10_state.md R40). -/
inductive LifeCycle where
  | unkeyed
  | keyed
  | zeroized
deriving DecidableEq, Repr

/-- The CipherState: the P-box and the four S-boxes (R37, R38; 40_key_schedule.md R100). -/
structure CipherState where
  /-- `P[0..17]` -/
  p : Vector Word 18
  /-- `S[0..3][0..255]` -/
  s : Vector (Vector Word 256) 4
deriving DecidableEq, Repr

/-- Every P and S word zero: the boxes of a core that is not keyed (R41, R44). -/
def CipherState.zero : CipherState where
  p := Vector.replicate 18 0
  s := Vector.replicate 4 (Vector.replicate 256 0)

/-- Data memory (20_memory.md R50): the bytes that are not zero, by rising address. An address that is not listed reads
as zero, so every map of the 2^32 addresses to bytes is one such list. -/
abbrev Memory := List Host.Cell

/-- What the host gets back from its latest access. The model's own field, by which a read is observable
(30_encoding.md R78: "the value is observed"). -/
inductive Reply where
  /-- no access yet, or the latest event was no access of the host -/
  | none
  /-- a write was taken (a write to `CMD`: its command has completed) -/
  | ack
  /-- the value of a register read -/
  | data (v : Word)
  /-- the bytes of the host's own read of data memory -/
  | bytes (bs : List Byte)
  /-- the bus error of a refused access (60_exceptions.md R224) -/
  | busError
  /-- the address is outside the register window, so the access is not BFCORE's -/
  | notSelected
deriving DecidableEq, Repr

/-- The state record of R43, the platform's parameters (00_scope.md R7), and the two fields that are the model's own:
the events still to come and the reply to the latest one. `STATUS` and `ID` are computed (R25, R33); `CMD` holds no
state (R24). -/
structure State where
  /-- `STATE` (R40) -/
  life   : LifeCycle
  /-- `P` and `S` (R37, R38) -/
  cipher : CipherState
  /-- `KBUF[0..55]` (R39) -/
  kbuf   : Vector Byte 56
  /-- `SRC` (R26) -/
  src    : Word
  /-- `DST` (R27) -/
  dst    : Word
  /-- `LEN` (R28) -/
  len    : Word
  /-- `RESULT` (R29) -/
  result : Word
  /-- `DIN_HI` (R30) -/
  dinHi  : Word
  /-- `DIN_LO` (R30) -/
  dinLo  : Word
  /-- `DOUT_HI` (R31) -/
  doutHi : Word
  /-- `DOUT_LO` (R31) -/
  doutLo : Word
  /-- `CV_HI` (R32) -/
  cvHi   : Word
  /-- `CV_LO` (R32) -/
  cvLo   : Word
  /-- `FADDR` (R34) -/
  faddr  : Word
  /-- `STATUS.WEAK` (R25) -/
  weak   : Bool
  /-- `STATUS.STICKY` (R25) -/
  sticky : Bool
  /-- `STATUS.ERR` (R25) -/
  err    : Byte
  /-- `MEM` (R42) -/
  mem    : Memory
  /-- `BFCORE_BASE` and `MEM_ADMIT` (00_scope.md R7) -/
  config : Config
  /-- the events that are still to reach the machine, the next one first -/
  pending : List Event
  /-- what the host got back from its latest access -/
  reply  : Reply
deriving DecidableEq, Repr

/-- Why the machine would stop with a fault. There is no reason: the spec gives every command word an effect, and
reports every error in `STATUS` (30_encoding.md R77, 60_exceptions.md R226). Nobody raises a fault; having none is
safe. -/
inductive Fault where
deriving DecidableEq, Repr

/-- Why the model would refuse an instruction. -/
inductive Refusal where
  /-- An instruction without a meaning yet; raised by an arm of `exec` only (safe). No arm raises it. -/
  | notModelled (mnemonic : String)
deriving DecidableEq, Repr

/-- The machine right after reset (R44, 70_reset_and_hazards.md R250): UNKEYED, every box word, key-buffer byte and
register zero. What reset does not set is the platform's: memory lists nothing, every address is admitted, the window
stands at host address 0, and nothing is pending (DESIGN CHOICE, log 1, 2, 3, 4). -/
def State.reset : State where
  life   := .unkeyed
  cipher := CipherState.zero
  kbuf   := Vector.replicate 56 0
  src    := 0
  dst    := 0
  len    := 0
  result := 0
  dinHi  := 0
  dinLo  := 0
  doutHi := 0
  doutLo := 0
  cvHi   := 0
  cvLo   := 0
  faddr  := 0
  weak   := false
  sticky := false
  err    := 0
  mem    := []
  config := { base := 0, admitted := [{ first := 0, last := 0xFFFFFFFF }] }
  pending := []
  reply  := .none

end Sys2Proof.Machine
end

