-- ==== Sys2Proof/Machine/Flags.lean ====
section
/-! DEFINITION. `STATUS` and its fields: the life-cycle codes, the error codes, and the three ways a rule writes them
(spec 10_state.md R25, R43; 00_scope.md R11; 60_exceptions.md R220, R221). -/

namespace Sys2Proof.Machine

/-- What a run of `exec` or `step` answers. -/
abbrev Result := Host.Outcome State Fault Refusal

/-- The errors BFCORE reports (60_exceptions.md R220). -/
inductive ErrorCause where
  | invalidKeyLength
  | invalidPadding
  | notKeyed
  | invalidated
  | illegalCommand
  | badOperand
  | busError
deriving DecidableEq, Repr

/-- The code of an error in `STATUS.ERR` (R220). -/
def ErrorCause.code : ErrorCause → Byte
  | .invalidKeyLength => 0x01#8
  | .invalidPadding => 0x02#8
  | .notKeyed => 0x03#8
  | .invalidated => 0x04#8
  | .illegalCommand => 0x05#8
  | .badOperand => 0x06#8
  | .busError => 0x07#8

/-- The code of the life-cycle state in `STATUS.STATE` (R25, R40). -/
def LifeCycle.code : LifeCycle → BitVec 2
  | .unkeyed => 0#2
  | .keyed => 1#2
  | .zeroized => 2#2

/-- `STATUS` (R25): ERR in 15:8, STICKY in 3, WEAK in 2, STATE in 1:0, every other bit zero. -/
def State.status (s : State) : Word :=
  0#16 ++ s.err ++ 0#4 ++ BitVec.ofBool s.sticky ++ BitVec.ofBool s.weak ++ s.life.code

/-- `STATUS.ERR <- 0`, the last effect of a command that ends well (00_scope.md R11). -/
def State.clearErr (s : State) : State := { s with err := 0 }

/-- `STATUS.ERR <- code(E)` and `STATUS.STICKY <- 1` (R11, R221). -/
def State.reportError (s : State) (e : ErrorCause) : State := { s with err := e.code, sticky := true }

/-- `WEAK <- w` (42_weak_key_and_zeroize.md R150). -/
def State.setWeak (s : State) (w : Bool) : State := { s with weak := w }

end Sys2Proof.Machine
end

