-- ==== Sys2Proof/Machine/Operands.lean ====
section
/-! DEFINITION. The operands of commands: blocks, their bytes and halves (spec 00_scope.md R10, 20_memory.md R52), the
register pairs that hold a block (10_state.md R30 to R32), and the number of bytes a buffer command takes from `LEN`
(20_memory.md R65). -/

namespace Sys2Proof.Machine

/-- The left half `hi(B) = B[63:32]` (00_scope.md R10). -/
def hi (b : Block) : Word := b.extractLsb' 32 32

/-- The right half `lo(B) = B[31:0]` (R10). -/
def lo (b : Block) : Word := b.extractLsb' 0 32

/-- The block of two halves, `L ++ R` (R10). -/
def blockOf (l r : Word) : Block := l ++ r

/-- `byte(B, i) = B[63-8i : 56-8i]`, for `i` in 0..7; byte 0 is the most significant (R10). -/
def byteOf (b : Block) (i : Nat) : Byte := b.extractLsb' (56 - 8 * i) 8

/-- The block whose byte `i` is `f i` (R10). -/
def blockOfBytes (f : Nat → Byte) : Block := f 0 ++ f 1 ++ f 2 ++ f 3 ++ f 4 ++ f 5 ++ f 6 ++ f 7

/-- `byte(W, i) = W[31-8i : 24-8i]` of a 32-bit word, for `i` in 0..3 (R10). -/
def wordByte (w : Word) (i : Nat) : Byte := w.extractLsb' (24 - 8 * i) 8

/-- The word whose byte `i` is `f i`, first byte most significant (40_key_schedule.md R104). -/
def wordOfBytes (f : Nat → Byte) : Word := f 0 ++ f 1 ++ f 2 ++ f 3

/-- `DIN = DIN_HI ++ DIN_LO` (10_state.md R30). -/
def State.din (s : State) : Block := blockOf s.dinHi s.dinLo

/-- `DOUT = DOUT_HI ++ DOUT_LO` (R31). -/
def State.dout (s : State) : Block := blockOf s.doutHi s.doutLo

/-- `CV = CV_HI ++ CV_LO` (R32). -/
def State.cv (s : State) : Block := blockOf s.cvHi s.cvLo

/-- `DOUT_HI <- b[63:32]`, `DOUT_LO <- b[31:0]` (R31). -/
def State.setDout (s : State) (b : Block) : State := { s with doutHi := hi b, doutLo := lo b }

/-- `CV_HI <- b[63:32]`, `CV_LO <- b[31:0]` (R32). -/
def State.setCv (s : State) (b : Block) : State := { s with cvHi := hi b, cvLo := lo b }

/-- `RESULT <- v` (R29). -/
def State.setResult (s : State) (v : Word) : State := { s with result := v }

/-- The number of whole blocks a buffer command handles, `n / 8` with `n = LEN - (LEN mod 8)` (20_memory.md R65). -/
def wholeBlocks (len : Word) : Nat := len.toNat / 8

/-- `n = LEN - (LEN mod 8)`, the number of bytes a buffer command processes (R65). -/
def wholeBytes (len : Word) : Word := len - len % 8

end Sys2Proof.Machine
end

