-- ==== Sys2Proof/Machine/Cipher.lean ====
section
/-! DEFINITION. The Blowfish transforms over the CipherState: S-box lookup, the round function, encryption and decryption
of a block (spec 41_block_transform.md R120 to R123), and the key schedule's mixing and filling of the boxes
(40_key_schedule.md R104, R105). -/

namespace Sys2Proof.Machine

/-- The word `S[b][k]` of an S-box, `k` a byte, so that no lookup is out of range (R120). -/
def CipherState.sbox (c : CipherState) (b : Fin 4) (k : Byte) : Word := (c.s[b])[k.toNat]'k.isLt

/-- The round function `F(x)`: add, then XOR, then add, the most significant byte indexing `S[0]` (R120, R121). -/
def CipherState.f (c : CipherState) (x : Word) : Word :=
  ((c.sbox 0 (wordByte x 0) + c.sbox 1 (wordByte x 1)) ^^^ c.sbox 2 (wordByte x 2)) + c.sbox 3 (wordByte x 3)

/-- One Feistel round with `P[i]`, the swap of the halves included (R122, R123). -/
def CipherState.round (c : CipherState) (i : Fin 18) (lr : Word × Word) : Word × Word :=
  let l := lr.1 ^^^ c.p[i]
  (lr.2 ^^^ c.f l, l)

/-- The rounds that use the P words of a list of indices, in its order. -/
def CipherState.rounds (c : CipherState) : List (Fin 18) → Word × Word → Word × Word
  | [], lr => lr
  | i :: is, lr => c.rounds is (c.round i lr)

/-- What follows the rounds: the last swap is undone, `P[i]` goes into the right half and `P[j]` into the left (R122,
R123). -/
def CipherState.final (c : CipherState) (i j : Fin 18) (lr : Word × Word) : Word × Word :=
  (lr.2 ^^^ c.p[j], lr.1 ^^^ c.p[i])

/-- The P indices of the 16 rounds of `Encrypt` (R122). -/
def encRounds : List (Fin 18) := [0, 1, 2, 3, 4, 5, 6, 7, 8, 9, 10, 11, 12, 13, 14, 15]

/-- The P indices of the 16 rounds of `Decrypt` (R123). -/
def decRounds : List (Fin 18) := [17, 16, 15, 14, 13, 12, 11, 10, 9, 8, 7, 6, 5, 4, 3, 2]

/-- `Encrypt(L, R)` (R122). -/
def CipherState.encrypt (c : CipherState) (lr : Word × Word) : Word × Word := c.final 16 17 (c.rounds encRounds lr)

/-- `Decrypt(L, R)` (R123). -/
def CipherState.decrypt (c : CipherState) (lr : Word × Word) : Word × Word := c.final 1 0 (c.rounds decRounds lr)

/-- `Encrypt` of a 64-bit block, split into its halves and put together again (R125). -/
def CipherState.encryptBlock (c : CipherState) (b : Block) : Block :=
  let lr := c.encrypt (hi b, lo b)
  blockOf lr.1 lr.2

/-- `Decrypt` of a 64-bit block (R126). -/
def CipherState.decryptBlock (c : CipherState) (b : Block) : Block :=
  let lr := c.decrypt (hi b, lo b)
  blockOf lr.1 lr.2

/-! ## Weak keys -/

/-- Does a list hold two equal words at different places (42_weak_key_and_zeroize.md R150, the two inner loops)? -/
def hasDuplicate : List Word → Bool
  | [] => false
  | w :: ws => ws.any (fun v => w == v) || hasDuplicate ws

/-- The result of WEAKCHK: some S-box holds two equal words (R150, R151). -/
def CipherState.weakKey (c : CipherState) : Bool := c.s.toList.any (fun box => hasDuplicate box.toList)

/-! ## The key schedule -/

/-- The key byte `KBUF[j]` with the running index after `t` bytes, `j = t mod kl` (R104: "j <- (j + 1) mod kl", which
starts at 0). -/
def keyByte (kbuf : Vector Byte 56) (kl t : Nat) : Byte := kbuf[t % kl]?.getD 0

/-- The four key bytes that are XORed into `P[i]`, packed big-endian (R104). -/
def keyWord (kbuf : Vector Byte 56) (kl i : Nat) : Word := wordOfBytes (fun q => keyByte kbuf kl (4 * i + q))

/-- `MixKey(kl)` (R104). -/
def mixKey (kbuf : Vector Byte 56) (kl : Nat) (c : CipherState) : CipherState :=
  { c with p := c.p.mapIdx (fun i w => w ^^^ keyWord kbuf kl i) }

/-- The boxes while they are filled, and the running block (R105). -/
structure Filling where
  cipher : CipherState
  lr     : Word × Word
deriving DecidableEq, Repr

/-- `(L, R) <- Encrypt(L, R)` with the current boxes; `P[i] <- L`; `P[i+1] <- R` (R105). -/
def Filling.stepP (g : Filling) (i : Nat) : Filling :=
  let lr := g.cipher.encrypt g.lr
  { cipher := { g.cipher with p := (g.cipher.p.setIfInBounds i lr.1).setIfInBounds (i + 1) lr.2 }, lr := lr }

/-- `(L, R) <- Encrypt(L, R)` with the current boxes; `S[b][k] <- L`; `S[b][k+1] <- R` (R105). -/
def Filling.stepS (g : Filling) (b : Fin 4) (k : Nat) : Filling :=
  let lr := g.cipher.encrypt g.lr
  { cipher := { g.cipher with
      s := g.cipher.s.set b (((g.cipher.s[b]).setIfInBounds k lr.1).setIfInBounds (k + 1) lr.2) b.isLt }
    lr := lr }

/-- The 9 pairs of the P-box, in ascending order (R105). -/
def Filling.fillP (g : Filling) : Filling := (List.range 9).foldl (fun g j => g.stepP (2 * j)) g

/-- The 128 pairs of one S-box, in ascending order (R105). -/
def Filling.fillS (g : Filling) (b : Fin 4) : Filling := (List.range 128).foldl (fun g j => g.stepS b (2 * j)) g

/-- `FillBoxes()`: from the zero block, first P, then S[0], S[1], S[2], S[3] (R105). -/
def fillBoxes (c : CipherState) : CipherState :=
  ((((({ cipher := c, lr := (0, 0) } : Filling).fillP).fillS 0).fillS 1).fillS 2).fillS 3 |>.cipher

/-- The boxes a key of `kl` bytes at the front of `KBUF` gives (R103, R107): always from the constants. -/
def keySchedule (kbuf : Vector Byte 56) (kl : Nat) : CipherState := fillBoxes (mixKey kbuf kl CipherState.init)

end Sys2Proof.Machine
end

