-- ==== Sys2Proof/Machine/Ops.lean ====
section
/-! DEFINITION. The operations every command is built from: data memory and its admission check (spec 20_memory.md R50 to
R54), ending a command well or with an error (00_scope.md R11: BFCORE's whole exception mechanism, since it has no trap,
60_exceptions.md R226), the life-cycle check (30_encoding.md R76), reset (70_reset_and_hazards.md R250) and the register
window (10_state.md R22 to R36). -/

namespace Sys2Proof.Machine

/-! ## Data memory -/

/-- What an address reads as that is not listed (DESIGN CHOICE, log 1: only a name for the contents `MEM0` of
`State.reset`; every memory contents has its list). -/
def Memory.unlisted : Byte := 0#8

/-- Is the list the canonical form from address `low` upward: addresses strictly rising and below 2^32, no byte equal to what an unlisted address
reads as? -/
def Memory.wfFrom : Nat → Memory → Bool
  | _, [] => true
  | low, (a, b) :: m => decide (low ≤ a) && decide (a < 2 ^ 32) && decide (b ≠ Memory.unlisted) && Memory.wfFrom (a + 1) m

/-- The canonical form of a memory. -/
def Memory.wf (m : Memory) : Bool := Memory.wfFrom 0 m

/-- The byte at an address. -/
def Memory.read : Memory → Nat → Byte
  | [], _ => Memory.unlisted
  | (a', b) :: m, a => if a = a' then b else Memory.read m a

/-- Writing a byte. It keeps the canonical form: a byte equal to what an unlisted address reads as is not listed. -/
def Memory.write : Memory → Nat → Byte → Memory
  | [], a, b => if b = Memory.unlisted then [] else [(a, b)]
  | (a', b') :: m, a, b =>
    if a < a' then (if b = Memory.unlisted then (a', b') :: m else (a, b) :: (a', b') :: m)
    else if a = a' then (if b = Memory.unlisted then m else (a', b) :: m)
    else (a', b') :: Memory.write m a b

/-- The byte at `a + i` modulo 2^32 (20_memory.md R53). -/
def Memory.byteAt (m : Memory) (a : Word) (i : Nat) : Byte := m.read (a + BitVec.ofNat 32 i).toNat

/-- Writing the byte at `a + i` modulo 2^32 (R53). -/
def Memory.setByteAt (m : Memory) (a : Word) (i : Nat) (b : Byte) : Memory :=
  m.write (a + BitVec.ofNat 32 i).toNat b

/-- Writing bytes upward from `a + i`, in ascending order (R54; the host's `mem`, 30_encoding.md R78). -/
def Memory.writeBytes : Memory → Word → Nat → List Byte → Memory
  | m, _, _, [] => m
  | m, a, i, b :: bs => Memory.writeBytes (m.setByteAt a i b) a (i + 1) bs

/-- The `n` bytes from `a` upward, in ascending order (R54). -/
def Memory.readBytes (m : Memory) (a : Word) (n : Nat) : List Byte := (List.range n).map (m.byteAt a)

/-- The 8 bytes at `a` as a block: the byte at `a` is the most significant (R52, R54). -/
def Memory.readBlock (m : Memory) (a : Word) : Block := blockOfBytes (m.byteAt a)

/-- The 8 bytes of a block written at `a`, most significant first (R52, R54). -/
def Memory.writeBlock (m : Memory) (a : Word) (v : Block) : Memory :=
  m.writeBytes a 0 ((List.range 8).map (byteOf v))

/-- The first address of `a + i, …, a + i + n - 1` (modulo 2^32, in that order) that is not admitted (R54). -/
def firstRefusedFrom (c : Config) (a : Word) : Nat → Nat → Option Word
  | _, 0 => none
  | i, n + 1 =>
    if c.admits (a + BitVec.ofNat 32 i) then firstRefusedFrom c a (i + 1) n else some (a + BitVec.ofNat 32 i)

/-- The admission check of an access of `n` bytes at `a` (R54). -/
def firstRefused (c : Config) (a : Word) (n : Nat) : Option Word := firstRefusedFrom c a 0 n

/-- `MemRead(a, 1)`; the error is the address not admitted (R54). -/
def memReadByte (s : State) (a : Word) : Except Word Byte :=
  match firstRefused s.config a 1 with
  | some f => .error f
  | none => .ok (s.mem.byteAt a 0)

/-- `MemRead(a, 8)`; the error is the first address not admitted (R54). -/
def memReadBlock (s : State) (a : Word) : Except Word Block :=
  match firstRefused s.config a 8 with
  | some f => .error f
  | none => .ok (s.mem.readBlock a)

/-- `MemWrite(a, 8, v)`; a refused write transfers no byte (R54). -/
def memWriteBlock (s : State) (a : Word) (v : Block) : Except Word State :=
  match firstRefused s.config a 8 with
  | some f => .error f
  | none => .ok { s with mem := s.mem.writeBlock a v }

/-! ## How a command ends -/

/-- `finish`: the command ends well (00_scope.md R11, 30_encoding.md R77). -/
def finish (s : State) : Result := .next s.clearErr

/-- `raise E`: the command ends with an error, reported in `STATUS`; the core is ready for the next command at once
(R11, 60_exceptions.md R221, R226). -/
def raise (e : ErrorCause) (s : State) : Result := .next (s.reportError e)

/-- `FADDR <- f; raise BUS_ERROR`: an access found address `f` not admitted (20_memory.md R54, 60_exceptions.md R221). -/
def raiseBusError (f : Word) (s : State) : Result := raise .busError { s with faddr := f }

/-- The check of the nine commands that need a key: INVALIDATED before NOT_KEYED, before anything else
(30_encoding.md R76, 60_exceptions.md R223). -/
def requireKeyed (s : State) (run : Result) : Result :=
  match s.life with
  | .zeroized => raise .invalidated s
  | .unkeyed => raise .notKeyed s
  | .keyed => run

/-- The check of KEYSCHED, which only a zeroized core refuses (R76). -/
def requireNotZeroized (s : State) (run : Result) : Result :=
  match s.life with
  | .zeroized => raise .invalidated s
  | .unkeyed | .keyed => run

/-! ## The loop of the buffer commands -/

/-- The loop of the four buffer commands (20_memory.md R65): with `k` bytes done, read the block at `SRC + k`, compute
the output block, write it at `DST + k`, and only then update the chaining value; `RESULT` is the count of bytes done,
at the end and where an access is refused (41_block_transform.md R127, 43_cbc.md R175). `blocks` counts the blocks still
to do. -/
def bufferLoop (transform : State → Block → Block) (chain : State → Block → Block → State) :
    Nat → Word → State → Result
  | 0, k, s => finish (s.setResult k)
  | blocks + 1, k, s =>
    match memReadBlock s (s.src + k) with
    | .error f => raiseBusError f (s.setResult k)
    | .ok inp =>
      match memWriteBlock s (s.dst + k) (transform s inp) with
      | .error f => raiseBusError f (s.setResult k)
      | .ok s' => bufferLoop transform chain blocks (k + 8) (chain s' inp (transform s inp))

/-- The raw commands leave the chaining value alone (43_cbc.md R179). -/
def noChain (s : State) (_inp _out : Block) : State := s

/-! ## Reset -/

/-- Reset sets every piece of BFCORE state to its reset value and leaves data memory as it is (70_reset_and_hazards.md
R250, R252). The platform's parameters and the events to come are not the core's. -/
def State.resetCore (s : State) : State :=
  { State.reset with mem := s.mem, config := s.config, pending := s.pending }

/-! ## The register window -/

/-- The offset of a register (10_state.md R23). -/
def regOffset : Reg → Nat
  | .cmd => 0x00
  | .status => 0x04
  | .src => 0x08
  | .dst => 0x0C
  | .len => 0x10
  | .result => 0x14
  | .dinHi => 0x18
  | .dinLo => 0x1C
  | .doutHi => 0x20
  | .doutLo => 0x24
  | .cvHi => 0x28
  | .cvLo => 0x2C
  | .id => 0x30
  | .faddr => 0x34
  | .rsvd38 => 0x38
  | .rsvd3C => 0x3C

/-- The register at an offset, if there is one (R23). -/
def regAtOffset : Nat → Option Reg
  | 0x00 => some .cmd
  | 0x04 => some .status
  | 0x08 => some .src
  | 0x0C => some .dst
  | 0x10 => some .len
  | 0x14 => some .result
  | 0x18 => some .dinHi
  | 0x1C => some .dinLo
  | 0x20 => some .doutHi
  | 0x24 => some .doutLo
  | 0x28 => some .cvHi
  | 0x2C => some .cvLo
  | 0x30 => some .id
  | 0x34 => some .faddr
  | 0x38 => some .rsvd38
  | 0x3C => some .rsvd3C
  | _ => none

/-- The identification constant, ASCII "BFC1" (R33). -/
def idConstant : Word := 0x42464331

/-- What a host read of a register returns (R24 to R35). A read changes nothing (20_memory.md R58). -/
def readReg (s : State) : Reg → Word
  | .cmd => 0
  | .status => s.status
  | .src => s.src
  | .dst => s.dst
  | .len => s.len
  | .result => s.result
  | .dinHi => s.dinHi
  | .dinLo => s.dinLo
  | .doutHi => s.doutHi
  | .doutLo => s.doutLo
  | .cvHi => s.cvHi
  | .cvLo => s.cvLo
  | .id => idConstant
  | .faddr => s.faddr
  | .rsvd38 => 0
  | .rsvd3C => 0

/-- What a host write to a register other than `CMD` does: the operand registers take the value, every other register
ignores it (R26 to R36). A write to `CMD` runs a command, and is `hostWrite`'s. -/
def writeReg (s : State) (v : Word) : Reg → State
  | .src => { s with src := v }
  | .dst => { s with dst := v }
  | .len => { s with len := v }
  | .dinHi => { s with dinHi := v }
  | .dinLo => { s with dinLo := v }
  | .cvHi => { s with cvHi := v }
  | .cvLo => { s with cvLo := v }
  | .cmd | .status | .result | .doutHi | .doutLo | .id | .faddr | .rsvd38 | .rsvd3C => s

/-- What an access at a host address reaches. -/
inductive Selected where
  /-- a register, by a well-formed access -/
  | reg (r : Reg)
  /-- the window, by an access it refuses (60_exceptions.md R224) -/
  | refused
  /-- nothing of BFCORE's -/
  | outside
deriving DecidableEq, Repr

/-- The window is the 64 bytes at `BFCORE_BASE`; it takes 32-bit accesses at offsets that are multiples of 4
(10_state.md R22). -/
def select (c : Config) (addr : Word) (width : Nat) : Selected :=
  if (addr - c.base).toNat < windowSize then
    if accessWf (addr - c.base) width then
      match regAtOffset (addr - c.base).toNat with
      | some r => .reg r
      | none => .refused
    else .refused
  else .outside

end Sys2Proof.Machine
end

