-- ==== Sys2Proof/Machine/Block.lean ====
section
/-! DEFINITION. The raw (ECB-equivalent) commands: ENC_BLK, DEC_BLK, ENC_BUF, DEC_BUF (spec 41_block_transform.md R125 to
R128). None reads or writes the chaining value (43_cbc.md R179). -/

namespace Sys2Proof.Machine

/-- ENC_BLK (R125). -/
def execEncBlk (s : State) : Result := requireKeyed s (finish (s.setDout (s.cipher.encryptBlock s.din)))

/-- DEC_BLK (R126). -/
def execDecBlk (s : State) : Result := requireKeyed s (finish (s.setDout (s.cipher.decryptBlock s.din)))

/-- The output block of ENC_BUF (R127). -/
def rawEncrypt (s : State) (inp : Block) : Block := s.cipher.encryptBlock inp

/-- The output block of DEC_BUF (R128). -/
def rawDecrypt (s : State) (inp : Block) : Block := s.cipher.decryptBlock inp

/-- ENC_BUF (R127). -/
def execEncBuf (s : State) : Result := requireKeyed s (bufferLoop rawEncrypt noChain (wholeBlocks s.len) 0 s)

/-- DEC_BUF (R128). -/
def execDecBuf (s : State) : Result := requireKeyed s (bufferLoop rawDecrypt noChain (wholeBlocks s.len) 0 s)

end Sys2Proof.Machine
end

