-- ==== Sys2Proof/Machine/Cbc.lean ====
section
/-! DEFINITION. The chaining value and the chained commands: CV_LOAD, CV_STORE, CBC_ENC_BLK, CBC_DEC_BLK, CBC_ENC_BUF,
CBC_DEC_BUF (spec 43_cbc.md R171 to R176; the order of XOR and update is that of 90_conflicts.md C4). -/

namespace Sys2Proof.Machine

/-- CV_LOAD (R171); legal in every life-cycle state. -/
def execCvLoad (s : State) : Result :=
  match memReadBlock s s.src with
  | .error f => raiseBusError f s
  | .ok v => finish (s.setCv v)

/-- CV_STORE (R172); legal in every life-cycle state. -/
def execCvStore (s : State) : Result :=
  match memWriteBlock s s.dst s.cv with
  | .error f => raiseBusError f s
  | .ok s' => finish s'

/-- The ciphertext block of a chained encryption: the plaintext XORed with the chaining value, encrypted (R173). -/
def cbcEncrypt (s : State) (inp : Block) : Block := s.cipher.encryptBlock (inp ^^^ s.cv)

/-- The plaintext block of a chained decryption: the ciphertext decrypted, XORed with the chaining value (R174). -/
def cbcDecrypt (s : State) (inp : Block) : Block := s.cipher.decryptBlock inp ^^^ s.cv

/-- After a chained encryption the chaining value is the output block (R173). -/
def chainOutput (s : State) (_inp out : Block) : State := s.setCv out

/-- After a chained decryption the chaining value is the saved input block (R174). -/
def chainInput (s : State) (inp _out : Block) : State := s.setCv inp

/-- CBC_ENC_BLK (R173). -/
def execCbcEncBlk (s : State) : Result :=
  requireKeyed s (finish (chainOutput (s.setDout (cbcEncrypt s s.din)) s.din (cbcEncrypt s s.din)))

/-- CBC_DEC_BLK (R174). -/
def execCbcDecBlk (s : State) : Result :=
  requireKeyed s (finish (chainInput (s.setDout (cbcDecrypt s s.din)) s.din (cbcDecrypt s s.din)))

/-- CBC_ENC_BUF (R175). -/
def execCbcEncBuf (s : State) : Result := requireKeyed s (bufferLoop cbcEncrypt chainOutput (wholeBlocks s.len) 0 s)

/-- CBC_DEC_BUF (R176). -/
def execCbcDecBuf (s : State) : Result := requireKeyed s (bufferLoop cbcDecrypt chainInput (wholeBlocks s.len) 0 s)

end Sys2Proof.Machine
end

