-- ==== Sys2Proof/Machine/KeySchedule.lean ====
section
/-! DEFINITION. KEYSCHED (spec 40_key_schedule.md R102 to R108). -/

namespace Sys2Proof.Machine

/-- `for i in 0..55: KBUF[i] <- 0` (R103, R106; 42_weak_key_and_zeroize.md R152). -/
def State.clearKbuf (s : State) : State := { s with kbuf := Vector.replicate 56 0 }

/-- Every P and S word to zero (R106, R152). -/
def State.clearCipher (s : State) : State := { s with cipher := CipherState.zero }

/-- `Fail(E)`: KBUF and the boxes are cleared, the core is UNKEYED and not weak, and `E` is raised (R106). -/
def failKeysched (e : ErrorCause) (s : State) : Result :=
  raise e { s.clearKbuf.clearCipher with life := .unkeyed, weak := false }

/-- `KBUF[i] <- MemRead(SRC + i, 1)` for the `n` indices from `i` upward; the error is the address not admitted (R103). -/
def loadKey (s : State) : Nat → Nat → Vector Byte 56 → Except Word (Vector Byte 56)
  | _, 0, kbuf => .ok kbuf
  | i, n + 1, kbuf =>
    match memReadByte s (s.src + BitVec.ofNat 32 i) with
    | .error f => .error f
    | .ok b => loadKey s (i + 1) n (kbuf.setIfInBounds i b)

/-- KEYSCHED after its key bytes are in KBUF: the boxes are built from them, KBUF is cleared, and the core is KEYED and
not weak (R103). -/
def installKey (kl : Nat) (s : State) : State :=
  { ({ s with cipher := keySchedule s.kbuf kl } : State).clearKbuf with life := .keyed, weak := false }

/-- KEYSCHED (R103): the length is checked before any memory is read. -/
def execKeysched (s : State) : Result :=
  requireNotZeroized s
    (if s.len.toNat < 1 ∨ maxKeyLength < s.len.toNat then failKeysched .invalidKeyLength s
     else match loadKey s 0 s.len.toNat s.kbuf with
      | .error f => failKeysched .busError { s with faddr := f }
      | .ok kbuf => finish (installKey s.len.toNat { s with kbuf := kbuf }))

end Sys2Proof.Machine
end

