-- ==== Sys2Proof/Machine/Padding.lean ====
section
/-! DEFINITION. The padding engine: PAD_BLK, UNPAD_STRICT, UNPAD_LENIENT (spec 44_padding.md R200 to R202; the two ways
of unpadding are kept apart, 90_conflicts.md C2). They run in every life-cycle state. -/

namespace Sys2Proof.Machine

/-- The padded block: the first `c` bytes of `b`, then bytes equal to the pad count `8 - c` (R200). -/
def padBlock (b : Block) (c : Nat) : Block :=
  blockOfBytes (fun i => if i < c then byteOf b i else BitVec.ofNat 8 (8 - c))

/-- PAD_BLK (R200): a count above 7 is refused. -/
def execPadBlk (s : State) : Result :=
  if 7 < s.len.toNat then raise .badOperand s
  else finish ((s.setDout (padBlock s.din s.len.toNat)).setResult (8 - s.len))

/-- The pad count `n`: the last byte of the block, unsigned (R201, R202). -/
def padCount (b : Block) : Nat := (byteOf b 7).toNat

/-- Are the trailing `n` bytes all equal to `n` (R201)? -/
def trailingPad (b : Block) (n : Nat) : Bool :=
  (List.range 8).all (fun i => decide (i < 8 - n) || byteOf b i == BitVec.ofNat 8 n)

/-- UNPAD_STRICT (R201): `n > 8` is checked before the trailing bytes; `n = 0` is accepted. -/
def execUnpadStrict (s : State) : Result :=
  if 8 < padCount s.din then raise .invalidPadding s
  else if trailingPad s.din (padCount s.din) then
    finish (s.setResult (BitVec.ofNat 32 (8 - padCount s.din)))
  else raise .invalidPadding s

/-- The pad count of the lenient form: a count above 8 counts as 0 (R202). -/
def lenientCount (b : Block) : Nat := if 8 < padCount b then 0 else padCount b

/-- UNPAD_LENIENT (R202): the content length, never negative; the trailing bytes are not checked. -/
def execUnpadLenient (s : State) : Result :=
  finish (s.setResult (BitVec.ofNat 32 (s.len.toNat - lenientCount s.din)))

end Sys2Proof.Machine
end

