-- ==== Sys2Proof/Machine/Zeroize.lean ====
section
/-! DEFINITION. WEAKCHK, ZEROIZE and NOP (spec 42_weak_key_and_zeroize.md R150, R152, R154). -/

namespace Sys2Proof.Machine

/-- WEAKCHK (R150): `WEAK <- w`, `RESULT <- zext_32(w)`. -/
def execWeakchk (s : State) : Result :=
  requireKeyed s
    (finish ((s.setWeak s.cipher.weakKey).setResult (BitVec.setWidth 32 (BitVec.ofBool s.cipher.weakKey))))

/-- What ZEROIZE leaves: the boxes, KBUF, CV, DIN, DOUT, RESULT and WEAK are zero, and the core is ZEROIZED (R152). -/
def State.zeroized (s : State) : State :=
  { s.clearCipher.clearKbuf with
    cvHi := 0, cvLo := 0, dinHi := 0, dinLo := 0, doutHi := 0, doutLo := 0
    result := 0, weak := false, life := .zeroized }

/-- ZEROIZE (R152); legal in every life-cycle state. -/
def execZeroize (s : State) : Result := finish s.zeroized

/-- NOP (R154): `finish`, nothing else. -/
def execNop (s : State) : Result := finish s

end Sys2Proof.Machine
end

