-- ==== Sys2Proof/Machine/Dispatch.lean ====
section
/-! DEFINITION. One arm per command: the meaning of a decoded command word (spec 30_encoding.md R73, R76). Each meaning
makes its own life-cycle check, as the dispatch of R76 does before it runs the rule. -/

namespace Sys2Proof.Machine

/-- The rule of a command (R76), from the host's write of its command word to `finish` or `raise` (R77). -/
def exec (i : Instr) (s : State) : Host.Outcome State Fault Refusal :=
  match i with
  | .nop => Sys2Proof.Machine.execNop s
  | .keysched => Sys2Proof.Machine.execKeysched s
  | .encBlk => Sys2Proof.Machine.execEncBlk s
  | .decBlk => Sys2Proof.Machine.execDecBlk s
  | .encBuf => Sys2Proof.Machine.execEncBuf s
  | .decBuf => Sys2Proof.Machine.execDecBuf s
  | .weakchk => Sys2Proof.Machine.execWeakchk s
  | .zeroize => Sys2Proof.Machine.execZeroize s
  | .cvLoad => Sys2Proof.Machine.execCvLoad s
  | .cvStore => Sys2Proof.Machine.execCvStore s
  | .cbcEncBlk => Sys2Proof.Machine.execCbcEncBlk s
  | .cbcDecBlk => Sys2Proof.Machine.execCbcDecBlk s
  | .cbcEncBuf => Sys2Proof.Machine.execCbcEncBuf s
  | .cbcDecBuf => Sys2Proof.Machine.execCbcDecBuf s
  | .padBlk => Sys2Proof.Machine.execPadBlk s
  | .unpadStrict => Sys2Proof.Machine.execUnpadStrict s
  | .unpadLenient => Sys2Proof.Machine.execUnpadLenient s

end Sys2Proof.Machine
end

