-- ==== Sys2Proof/Machine/HostPort.lean ====
section
/-! DEFINITION. What each event from outside does: the host's accesses to the register window (spec 10_state.md R22 to
R36, 30_encoding.md R76), the host's own accesses to data memory (10_state.md R20, 20_memory.md R61), and reset
(70_reset_and_hazards.md R250). -/

namespace Sys2Proof.Machine

/-- `HostWrite(CMD, v)`: decode, then run the rule of the command; an illegal word raises ILLEGAL_COMMAND (30_encoding.md
R74, R76). -/
def runWord (v : Word) (s : State) : Result :=
  match decode v with
  | .error _ => raise .illegalCommand s
  | .ok i => exec i s

/-- The reply of a write, once the command it may have started has completed (10_state.md R24). -/
def acknowledge : Result → Result
  | .next s => .next { s with reply := .ack }
  | .fault r => .fault r
  | .refused r => .refused r

/-- A host write of `v`, `width` bits wide, to host address `addr` (R22, R24 to R36). -/
def hostWrite (addr : Word) (width : Nat) (v : Word) (s : State) : Result :=
  match select s.config addr width with
  | .reg .cmd => acknowledge (runWord v s)
  | .reg r => acknowledge (.next (writeReg s v r))
  | .refused => .next { s with reply := .busError }
  | .outside => .next { s with reply := .notSelected }

/-- A host read, `width` bits wide, of host address `addr` (R22 to R35). -/
def hostRead (addr : Word) (width : Nat) (s : State) : Result :=
  match select s.config addr width with
  | .reg r => .next { s with reply := .data (readReg s r) }
  | .refused => .next { s with reply := .busError }
  | .outside => .next { s with reply := .notSelected }

/-- The host's own write to data memory, which BFCORE does not see (20_memory.md R50); `MEM_ADMIT` is not asked. -/
def hostMemWrite (addr : Word) (bs : List Byte) (s : State) : State :=
  { s with mem := s.mem.writeBytes addr 0 bs, reply := .ack }

/-- The host's own read of data memory (R50). -/
def hostMemRead (addr : Word) (count : Nat) (s : State) : State :=
  { s with reply := .bytes (s.mem.readBytes addr count) }

/-- The memory a result leaves, or the memory before where it is no next state. -/
def memAfter (s : State) : Result → Memory
  | .next s' => s'.mem
  | .fault _ => s.mem
  | .refused _ => s.mem

/-- `LEN` cut so that a buffer command handles at most `blocks` blocks. -/
def cutLen (len : Word) (blocks : Nat) : Word := if wholeBlocks len ≤ blocks then len else BitVec.ofNat 32 (8 * blocks)

/-- The data memory a command leaves that is abandoned after it wrote `blocks` whole blocks: those blocks stay written,
and no other byte (70_reset_and_hazards.md R250). Only five commands write memory (20_memory.md R55). -/
def abandonedMem (i : Instr) (blocks : Nat) (s : State) : Memory :=
  match i with
  | .encBuf | .decBuf | .cbcEncBuf | .cbcDecBuf => memAfter s (exec i { s with len := cutLen s.len blocks })
  | .cvStore => if blocks = 0 then s.mem else memAfter s (exec .cvStore s)
  | .nop | .keysched | .encBlk | .decBlk | .weakchk | .zeroize | .cvLoad | .cbcEncBlk | .cbcDecBlk | .padBlk
  | .unpadStrict | .unpadLenient => s.mem

/-- Reset asserted while the command word `v` runs: the command is abandoned, its whole blocks stay, and every register
and internal word takes its reset value (R250). -/
def resetDuring (v : Word) (blocks : Nat) (s : State) : State :=
  match decode v with
  | .error _ => s.resetCore
  | .ok i => ({ s with mem := abandonedMem i blocks s } : State).resetCore

/-- One event from outside. -/
def applyEvent (e : Event) (s : State) : Result :=
  match e with
  | .regWrite addr width v => hostWrite addr width v s
  | .regRead addr width => hostRead addr width s
  | .memWrite addr bs => .next (hostMemWrite addr bs s)
  | .memRead addr count => .next (hostMemRead addr count s)
  | .reset => .next s.resetCore
  | .resetDuring v blocks => .next (resetDuring v blocks s)

/-- The host's write of a command word to `CMD`, as an event (10_state.md R24; 30_encoding.md R78: `W 0x00 v`). -/
def cmdWrite (c : Config) (v : Word) : Event := .regWrite (c.base + BitVec.ofNat 32 (regOffset .cmd)) 32 v

end Sys2Proof.Machine
end

