-- ==== Sys2Proof/Machine/Step.lean ====
section
/-! DEFINITION. One step of the whole sequential machine: one event from outside takes effect, and a command runs to
completion before the next (spec 10_state.md R20, 20_memory.md R57, R61). -/

namespace Sys2Proof.Machine

/-- One step: the first pending event takes effect. With none pending the core holds its state (70_reset_and_hazards.md
R251, 60_exceptions.md R235). -/
def step (s : State) : Host.Outcome State Fault Refusal :=
  match s.pending with
  | [] => .next s
  | e :: rest => applyEvent e { s with pending := rest }

/-- BFCORE fetches no instruction: a command word reaches it only as the data of a host write to `CMD` (20_memory.md
R64). So the word is placed as the next pending event, a 32-bit write to `CMD`. -/
def State.withFetchWord (s : State) (nbits w : Nat) : State :=
  { s with pending := cmdWrite s.config (BitVec.ofNat 32 (w % 2 ^ nbits)) :: s.pending }

end Sys2Proof.Machine
end

