-- ==== Sys2Proof/Machine/Assembly.lean ====
section
/-! DEFINITION. The host assembly language (spec 30_encoding.md R78, R79): what a statement is as an event, and what a
pseudo-instruction expands to. -/

namespace Sys2Proof.Machine

/-- The transaction of a statement, at the window's base (R78). -/
def assemble (c : Config) : Asm → Event
  | .wr r imm => .regWrite (c.base + BitVec.ofNat 32 (regOffset r)) 32 imm
  | .rd r => .regRead (c.base + BitVec.ofNat 32 (regOffset r)) 32
  | .cmd i => cmdWrite c (encode i)
  | .mem addr bs => .memWrite addr bs

/-- `wr SRC, src ; wr DST, dst ; wr LEN, len ; cmd i` (R79). -/
def expandBuf (i : Instr) (src dst len : Word) : List Asm := [.wr .src src, .wr .dst dst, .wr .len len, .cmd i]

/-- `setdin v64` (R79). -/
def expandSetdin (v : Block) : List Asm := [.wr .dinHi (hi v), .wr .dinLo (lo v)]

/-- The expansion of a pseudo-instruction (R79). -/
def expand : Pseudo → List Asm
  | .keysched src len => [.wr .src src, .wr .len len, .cmd .keysched]
  | .setcv v => [.wr .cvHi (hi v), .wr .cvLo (lo v)]
  | .getcv => [.rd .cvHi, .rd .cvLo]
  | .setdin v => expandSetdin v
  | .getdout => [.rd .doutHi, .rd .doutLo]
  | .encBlk v => expandSetdin v ++ [.cmd .encBlk]
  | .decBlk v => expandSetdin v ++ [.cmd .decBlk]
  | .cbcEncBlk v => expandSetdin v ++ [.cmd .cbcEncBlk]
  | .cbcDecBlk v => expandSetdin v ++ [.cmd .cbcDecBlk]
  | .encBuf src dst len => expandBuf .encBuf src dst len
  | .decBuf src dst len => expandBuf .decBuf src dst len
  | .cbcEncBuf src dst len => expandBuf .cbcEncBuf src dst len
  | .cbcDecBuf src dst len => expandBuf .cbcDecBuf src dst len
  | .cvLoad src => [.wr .src src, .cmd .cvLoad]
  | .cvStore dst => [.wr .dst dst, .cmd .cvStore]
  | .padBlk v count => expandSetdin v ++ [.wr .len count, .cmd .padBlk]
  | .unpadStrict v => expandSetdin v ++ [.cmd .unpadStrict]
  | .unpadLenient v len => expandSetdin v ++ [.wr .len len, .cmd .unpadLenient]
  | .check => [.rd .status, .rd .result]

/-- The events of a list of statements (R78: "a program's encoding is its list of transactions, in order"). -/
def program (c : Config) (as : List Asm) : List Event := as.map (assemble c)

end Sys2Proof.Machine
end

