-- ==== Sys2Proof/Machine/Frame.lean ====
section
/-! DEFINITION. The host's use of the chained commands and the padding engine to write and to read a stream frame (spec
44_padding.md R203, R204): a frame is 8 bytes of IV and then whole ciphertext blocks. The IV is a free argument
(70_reset_and_hazards.md R262). Putting bytes on a sink and taking them from a source is the host's (00_scope.md R5): here
they are lists. -/

namespace Sys2Proof.Machine

/-- The bytes of a block, byte 0 first (00_scope.md R10). -/
def bytesOf (b : Block) : List Byte := (List.range 8).map (byteOf b)

/-- The first 8 bytes of a list as a block; missing bytes are zero, and PAD_BLK overwrites them (44_padding.md R200). -/
def blockOfList (bs : List Byte) : Block := blockOfBytes (fun i => bs[i]?.getD 0)

/-- `setdin v64` (30_encoding.md R79). -/
def State.putDin (s : State) (b : Block) : State := { s with dinHi := hi b, dinLo := lo b }

/-- The host issues a command and checks `STATUS.ERR`: the state where the command ended well. -/
def issue (i : Instr) (s : State) : Option State :=
  match exec i s with
  | .next t => if t.err = 0 then some t else none
  | .fault _ | .refused _ => none

/-- A block through CBC_ENC_BLK or CBC_DEC_BLK; the bytes are those of `DOUT` (R203 step 2, R204 step 2). -/
def passBlock (i : Instr) (b : Block) (s : State) : Option (List Byte × State) :=
  (issue i (s.putDin b)).map (fun t => (bytesOf t.dout, t))

/-- `blocks` blocks of `data`, one after the other. -/
def passBlocks (i : Instr) : Nat → List Byte → State → Option (List Byte × State)
  | 0, _, s => some ([], s)
  | blocks + 1, data, s =>
    (passBlock i (blockOfList data) s).bind (fun first =>
      (passBlocks i blocks (data.drop 8) first.2).map (fun rest => (first.1 ++ rest.1, rest.2)))

/-- The last block of a frame: the remaining 0 to 7 bytes padded and encrypted, then the cipher erased (R203 steps 3
and 4). -/
def closeFrame (tail : List Byte) (s : State) : Option (List Byte × State) :=
  (issue .padBlk { s.putDin (blockOfList tail) with len := BitVec.ofNat 32 tail.length }).bind (fun padded =>
    (passBlock .cbcEncBlk padded.dout padded).bind (fun last =>
      (issue .zeroize last.2).map (fun erased => (last.1, erased))))

/-- Writing a frame: the IV in clear and into `CV`, the full groups of 8 bytes, the padded last block (R203). -/
def writeFrame (iv : Block) (data : List Byte) (s : State) : Option (List Byte × State) :=
  (passBlocks .cbcEncBlk (data.length / 8) data (s.setCv iv)).bind (fun body =>
    (closeFrame (data.drop (8 * (data.length / 8))) body.2).map (fun last =>
      (bytesOf iv ++ body.1 ++ last.1, last.2)))

/-- The last block of a frame read: decrypted, checked by UNPAD_STRICT, the first `RESULT` bytes kept (R204 step 3). -/
def openLast (block : List Byte) (s : State) : Option (List Byte × State) :=
  (passBlock .cbcDecBlk (blockOfList block) s).bind (fun last =>
    (issue .unpadStrict (last.2.putDin last.2.dout)).map (fun checked => (last.1.take checked.result.toNat, checked)))

/-- Reading a frame (R204). No answer where a command reports an error (INVALID_PADDING), or where the frame is not an IV
and at least one whole block (the source's `TruncatedStream`, which the host raises, 60_exceptions.md R228). -/
def readFrame (frame : List Byte) (s : State) : Option (List Byte × State) :=
  if frame.length < 16 ∨ frame.length % 8 ≠ 0 then none
  else
    (passBlocks .cbcDecBlk (frame.length / 8 - 2) (frame.drop 8) (s.setCv (blockOfList frame))).bind (fun body =>
      (openLast (frame.drop (frame.length - 8)) body.2).map (fun last => (body.1 ++ last.1, last.2)))

end Sys2Proof.Machine
end

