-- ==== Sys2Proof/Machine/Run.lean ====
section
/-! DEFINITION. A run and its final observation (spec 70_reset_and_hazards.md R263). -/

namespace Sys2Proof.Machine

/-- The registers of the window, in the order of their offsets (10_state.md R23). -/
def windowRegs : List Reg :=
  [.cmd, .status, .src, .dst, .len, .result, .dinHi, .dinLo, .doutHi, .doutLo, .cvHi, .cvLo, .id, .faddr, .rsvd38, .rsvd3C]

/-- What the host can read at the end of a run: the registers and `MEM`. `P`, `S` and `KBUF` are no part of it (R263). -/
structure Observation where
  /-- what a host read of each register returns, in the order of `windowRegs` -/
  regs : List Word
  /-- `MEM` -/
  mem  : Memory
deriving DecidableEq, Repr

/-- The state record restricted to what the host can read (R263). -/
def State.observe (s : State) : Observation where
  regs := windowRegs.map (readReg s)
  mem := s.mem

/-- Where a run starts: reset, with `MEM = MEM0`, on a platform, and with the host's accesses still to come (R263). -/
def State.atStart (c : Config) (mem0 : Memory) (events : List Event) : State :=
  { State.reset with mem := mem0, config := c, pending := events }

/-- The state in which a run ends: after its last access, with every command complete (R263). -/
def runFinal (c : Config) (mem0 : Memory) (events : List Event) : Result :=
  Sys2Proof.core.run events.length (State.atStart c mem0 events)

/-- The observation with which a run ends (R263). -/
def runObservation (c : Config) (mem0 : Memory) (events : List Event) : Option Observation :=
  match runFinal c mem0 events with
  | .next s => some s.observe
  | .fault _ | .refused _ => none

end Sys2Proof.Machine
end

