-- ==== Sys2Proof/Safety.lean ====
section
/-! DEFINITION. The terms claims are stated in: the invariant of the machine (spec 10_state.md R39, R41; 60_exceptions.md
R220), a clean run (70_reset_and_hazards.md R263), the classes of commands (30_encoding.md R76, 20_memory.md R55), and the
spec's loops written as sequences indexed by their count, apart from the machine's own definitions. -/

namespace Sys2Proof

/-- Is the event a reset of the core (70_reset_and_hazards.md R250)? -/
def Event.isReset : Event → Bool
  | .reset | .resetDuring _ _ => true
  | .regWrite _ _ _ | .regRead _ _ | .memWrite _ _ | .memRead _ _ => false

/-- The word of the command an event runs, whole or until a reset cuts it off: that of a write which selects `CMD`
(10_state.md R24), or of a command abandoned by reset (R250). -/
def Event.commandWord? (c : Config) : Event → Option Word
  | .regWrite addr width v => if Machine.select c addr width = .reg .cmd then some v else none
  | .resetDuring v _ => some v
  | .regRead _ _ | .memWrite _ _ | .memRead _ _ | .reset => none

end Sys2Proof

namespace Sys2Proof.Machine

/-- What holds of every state a run reaches. -/
structure State.Inv (s : State) : Prop where
  /-- data memory is in its canonical form -/
  memWf     : s.mem.wf = true
  /-- `KBUF` is all zero between commands (10_state.md R39) -/
  kbufZero  : s.kbuf = Vector.replicate 56 0
  /-- boxes are zero unless the core is KEYED (R41) -/
  boxesZero : s.life ≠ .keyed → s.cipher = CipherState.zero
  /-- WEAK is 0 unless the core is KEYED (R41) -/
  weakClear : s.life ≠ .keyed → s.weak = false
  /-- WEAK set means that the present boxes are those of a weak key (42_weak_key_and_zeroize.md R151) -/
  weakFound : s.weak = true → s.cipher.weakKey = true
  /-- codes 0x08 to 0xFF are never reported (60_exceptions.md R220) -/
  errKnown  : s.err.toNat ≤ 7
  /-- an error code in `STATUS.ERR` means that STICKY is set (10_state.md R25) -/
  errSticky : s.err ≠ 0 → s.sticky = true

/-- Every piece of core state at its reset value, memory apart (10_state.md R44). -/
structure State.AtReset (t : State) : Prop where
  life   : t.life = .unkeyed
  p      : ∀ i : Fin 18, t.cipher.p[i] = 0
  s      : ∀ (b : Fin 4) (k : Fin 256), t.cipher.s[b][k] = 0
  kbuf   : ∀ i : Fin 56, t.kbuf[i] = 0
  src    : t.src = 0
  dst    : t.dst = 0
  len    : t.len = 0
  result : t.result = 0
  din    : t.dinHi = 0 ∧ t.dinLo = 0
  dout   : t.doutHi = 0 ∧ t.doutLo = 0
  cv     : t.cvHi = 0 ∧ t.cvLo = 0
  faddr  : t.faddr = 0
  weak   : t.weak = false
  sticky : t.sticky = false
  err    : t.err = 0

/-- No command has ended with an error since reset (R263: "by reading `STATUS.STICKY = 0` at the end"). -/
def State.clean (s : State) : Prop := s.sticky = false

/-- The nine commands that need a key (30_encoding.md R76). -/
def needsKey : List Instr :=
  [.encBlk, .decBlk, .encBuf, .decBuf, .weakchk, .cbcEncBlk, .cbcDecBlk, .cbcEncBuf, .cbcDecBuf]

/-- The four buffer commands (20_memory.md R65). -/
def bufferCommands : List Instr := [.encBuf, .decBuf, .cbcEncBuf, .cbcDecBuf]

/-- Are the bytes of an access of `n` bytes at `a` all admitted (R54)? -/
def Admitted (c : Config) (a : Word) (n : Nat) : Prop := ∀ i < n, c.admits (a + BitVec.ofNat 32 i) = true

/-- `f` is the first address, in ascending offset order, of an access of `n` bytes at `a` that is not admitted (R54). -/
def RefusedAt (c : Config) (a : Word) (n : Nat) (f : Word) : Prop :=
  ∃ i < n, f = a + BitVec.ofNat 32 i ∧ c.admits f = false ∧ Admitted c a i

/-- The byte offset of block `k` (R65). -/
def blockOffset (k : Nat) : Word := BitVec.ofNat 32 (8 * k)

/-- The memory and the chaining value after the first `k` blocks of a buffer command, `out` computing an output block
from the chaining value and the input block, and `chain` the next chaining value from the chaining value, the input and
the output block (R65, R66). -/
def afterBlocks (out : Block → Block → Block) (chain : Block → Block → Block → Block) (s : State) : Nat → Memory × Block
  | 0 => (s.mem, s.cv)
  | k + 1 =>
    let prev := afterBlocks out chain s k
    let inp := prev.1.readBlock (s.src + blockOffset k)
    (prev.1.writeBlock (s.dst + blockOffset k) (out prev.2 inp), chain prev.2 inp (out prev.2 inp))

/-- Block `k` of a buffer command is read and written without a bus error (R65). -/
def BlockAdmitted (s : State) (k : Nat) : Prop :=
  Admitted s.config (s.src + blockOffset k) 8 ∧ Admitted s.config (s.dst + blockOffset k) 8

/-- Block `k` is the first of a buffer command that meets a bus error, at address `f`: its read is refused, or its read
is admitted and its write refused (R54, R65). -/
def BlockRefusedAt (s : State) (k : Nat) (f : Word) : Prop :=
  (∀ j < k, BlockAdmitted s j) ∧
    (RefusedAt s.config (s.src + blockOffset k) 8 f ∨
      Admitted s.config (s.src + blockOffset k) 8 ∧ RefusedAt s.config (s.dst + blockOffset k) 8 f)

/-- `(L, R)` after `n` rounds of the loop of `Encrypt` or `Decrypt`, `idx` giving the P index of each round
(41_block_transform.md R122, R123). -/
def afterRounds (c : CipherState) (idx : Nat → Nat) (l r : Word) : Nat → Word × Word
  | 0 => (l, r)
  | n + 1 =>
    let prev := afterRounds c idx l r n
    (prev.2 ^^^ c.f (prev.1 ^^^ c.p[idx n]?.getD 0), prev.1 ^^^ c.p[idx n]?.getD 0)

/-- The running key index `j` of `MixKey` after `t` bytes (40_key_schedule.md R104). -/
def runningIndex (kl : Nat) : Nat → Nat
  | 0 => 0
  | t + 1 => (runningIndex kl t + 1) % kl

/-- The word at a flat position of the boxes: `P[0..17]`, then `S[0]`, `S[1]`, `S[2]`, `S[3]` (R101, R105). -/
def CipherState.wordAt (c : CipherState) (w : Nat) : Word :=
  if w < 18 then c.p[w]?.getD 0 else ((c.s[(w - 18) / 256]?).bind (fun box => box[(w - 18) % 256]?)).getD 0

end Sys2Proof.Machine
end

