-- ==== Sys2Proof/Certificates/Slice0/Obligations.lean ====
section
/-! DEFINITION. The statements for the provers. They are written in terms of `step`, `exec` and the state's fields; the
spec's loops stand in Safety.lean as sequences. Events are put in front as `{ s with pending := e :: rest }`. -/

open Sys2Proof Sys2Proof.Machine

/-! ## Reset and the invariant -/

/-- 10_state.md R44: the reset table, of `State.reset` and of the state after a reset event, which leaves memory as it
was. -/
def Obligations.ResetGivesEveryFieldItsValue : Prop :=
  State.reset.AtReset ∧
    ∀ (s : State) (rest : List Event), ∃ t, step { s with pending := .reset :: rest } = .next t ∧ t.AtReset ∧ t.mem = s.mem

/-- 70_reset_and_hazards.md R250, R252, of reset asserted during a command: the core is at its reset values, and memory
holds the whole blocks already written and nothing else. That the event carries the number `m` of blocks written, and that
an `m` beyond what the command writes stands for a reset after its last write, is the model's choice (log 7); an illegal
word and a command that stores nothing leave memory alone whatever `m`. -/
def Obligations.ResetDuringACommandKeepsWholeBlocks : Prop :=
  ∀ (s : State) (v : Word) (m : Nat) (rest : List Event), ∃ t,
    step { s with pending := .resetDuring v m :: rest } = .next t ∧ t.AtReset ∧
    (m = 0 → t.mem = s.mem) ∧
    ((∀ i ∈ Instr.cvStore :: bufferCommands, decode v ≠ .ok i) → t.mem = s.mem) ∧
    (decode v = .ok .cvStore → 0 < m → ∀ u, exec .cvStore { s with pending := rest } = .next u → t.mem = u.mem) ∧
    (∀ i ∈ bufferCommands, decode v = .ok i →
      (∀ u, wholeBlocks s.len ≤ m → exec i { s with pending := rest } = .next u → t.mem = u.mem) ∧
      (∀ u, 8 * m ≤ s.len.toNat →
        exec i { s with pending := rest, len := BitVec.ofNat 32 (8 * m) } = .next u → t.mem = u.mem) ∧
      ∀ x, (∀ j < 8 * min m (wholeBlocks s.len), x ≠ (s.dst + BitVec.ofNat 32 j).toNat) →
        Memory.read t.mem x = Memory.read s.mem x)

/-- The invariant of Safety.lean holds right after reset (the empty memory of `State.reset` is the model's choice, log
1). -/
def Obligations.ResetStateMeetsTheInvariant : Prop := State.reset.Inv

/-- The invariant of Safety.lean (10_state.md R39, R41, R25; 60_exceptions.md R220; the canonical form of memory is the
model's own, log 5) is kept by every step from every state that meets it. -/
def Obligations.EveryStepKeepsTheInvariant : Prop :=
  ∀ s t : State, s.Inv → step s = .next t → t.Inv

/-! ## Steps and commands in general -/

/-- 30_encoding.md R77, 60_exceptions.md R226: no event stops the machine. -/
def Obligations.EveryStepAnswersANextState : Prop := ∀ s : State, ∃ t, step s = .next t

/-- 10_state.md R20, 20_memory.md R51: a step is one event, and never changes what the platform fixes; without an event
the state is held (60_exceptions.md R235). That the events to come are a list in the state, from which a step takes the
first, is the model's choice (log 4). -/
def Obligations.AStepTakesOneEvent : Prop :=
  ∀ s t : State, step s = .next t →
    t.config = s.config ∧ t.pending = s.pending.tail ∧ (s.pending = [] → t = s)

/-- 30_encoding.md R77: every command word's run ends by `finish` or by `raise`, one of the two, and what it does never
depends on the `STATUS.ERR` it overwrites. -/
def Obligations.EveryCommandEndsByFinishOrRaise : Prop :=
  ∀ (v : Word) (s : State), ∃ t, runWord v s = .next t ∧
    Xor (t.err = 0 ∧ t.sticky = s.sticky) (∃ e : ErrorCause, t.err = e.code ∧ t.sticky = true) ∧
    ∀ b : Byte, runWord v { s with err := b } = .next t

/-- 10_state.md R24, 30_encoding.md R76: a 32-bit host write of a command's word to `CMD` runs the command on the state
with the event taken; what step adds is the host's acknowledgement. `withFetchWord` places exactly such a write. -/
def Obligations.AStepRunsTheDecodedCommand : Prop :=
  ∀ (s : State) (v : Word) (i : Instr) (rest : List Event), decode v = .ok i →
    step { s with pending := .regWrite s.config.base 32 v :: rest } = acknowledge (exec i { s with pending := rest }) ∧
    step (s.withFetchWord 32 v.toNat) = acknowledge (exec i s)

/-- 30_encoding.md R74: a word with `RSVD != 0` or `OPC` above 0x10 raises ILLEGAL_COMMAND and changes nothing else; every
other word is a command. -/
def Obligations.IllegalWordsRaiseIllegalCommand : Prop :=
  ∀ (v : Word) (s : State),
    ((v.extractLsb' 8 24 ≠ 0 ∨ 0x11 ≤ (v.extractLsb' 0 8).toNat) →
      runWord v s = .next { s with err := 0x05, sticky := true }) ∧
    (¬ (v.extractLsb' 8 24 ≠ 0 ∨ 0x11 ≤ (v.extractLsb' 0 8).toNat) → ∃ i, runWord v s = exec i s)

/-- 30_encoding.md R70, R73: the decoder answers a command on its encoding, and on no other 32-bit word. -/
def Obligations.DecodeAnswersExactlyTheEncoding : Prop :=
  ∀ (v : Word) (i : Instr), decode v = .ok i ↔ v = encode i

/-- 30_encoding.md R73: some words of the opcode map, written out. -/
def Obligations.WordsOfTheOpcodeMapDecode : Prop :=
  decode 0x00000000 = .ok .nop ∧ decode 0x00000001 = .ok .keysched ∧ decode 0x00000002 = .ok .encBlk ∧
  decode 0x00000007 = .ok .zeroize ∧ decode 0x0000000D = .ok .cbcDecBuf ∧ decode 0x00000010 = .ok .unpadLenient ∧
  decode 0x00000102 = .error .reservedNotZero ∧ decode 0x00000011 = .error .opcodeUnassigned

/-- 30_encoding.md R76: the life-cycle checks come first. The nine commands that need a key raise INVALIDATED on a zeroized
core and NOT_KEYED on an unkeyed one; KEYSCHED raises INVALIDATED on a zeroized core; nothing else changes. -/
def Obligations.LifeCycleChecksComeFirst : Prop :=
  ∀ s : State,
    (s.life = .zeroized → ∀ i ∈ Instr.keysched :: needsKey, exec i s = .next { s with err := 0x04, sticky := true }) ∧
    (s.life = .unkeyed → ∀ i ∈ needsKey, exec i s = .next { s with err := 0x03, sticky := true })

/-- 42_weak_key_and_zeroize.md R153: the seven commands that need no key do on a zeroized core what they do on an unkeyed
one. -/
def Obligations.ZeroizedCoreRunsTheKeylessCommands : Prop :=
  ∀ s : State, s.life = .zeroized →
    ∀ i ∈ [Instr.nop, .zeroize, .cvLoad, .cvStore, .padBlk, .unpadStrict, .unpadLenient],
      ∃ t, exec i { s with life := .unkeyed } = .next t ∧ exec i s = .next { t with life := .zeroized }

/-- 10_state.md R40: the codes and the transitions of the life-cycle state. -/
def Obligations.LifeCycleTransitions : Prop :=
  (LifeCycle.unkeyed.code = 0 ∧ LifeCycle.keyed.code = 1 ∧ LifeCycle.zeroized.code = 2) ∧
  (∀ (i : Instr) (s t : State), exec i s = .next t →
    (i = .zeroize → t.life = .zeroized) ∧
    (i = .keysched → s.life ≠ .zeroized →
      t.err = 0 ∧ t.life = .keyed ∨ (t.err = 0x01 ∨ t.err = 0x07) ∧ t.life = .unkeyed) ∧
    (i = .keysched → s.life = .zeroized → t.err = 0x04 ∧ t.life = .zeroized) ∧
    (i ≠ .zeroize → i ≠ .keysched → t.life = s.life)) ∧
  (∀ (s t : State) (e : Event) (rest : List Event), step { s with pending := e :: rest } = .next t →
    (e.isReset = true → t.life = .unkeyed) ∧
    (e.isReset = false → s.life = .zeroized → t.life = .zeroized) ∧
    (e.commandWord? s.config = none → e.isReset = false → t.life = s.life))

/-- 10_state.md R25, R45: STICKY, once set, is cleared by reset alone; so a run that ends clean (70_reset_and_hazards.md
R263) had no error since its last reset. -/
def Obligations.OnlyResetClearsSticky : Prop :=
  ∀ (s t : State) (e : Event) (rest : List Event), e.isReset = false →
    step { s with pending := e :: rest } = .next t → t.clean →
    s.clean ∧ (t.err = 0 ∨ t.err = s.err)

/-! ## The register window -/

/-- 60_exceptions.md R224: an access to the window that is not 32 bits wide or not at a multiple of 4 gets a bus error and
changes no state. -/
def Obligations.MisshapenAccessIsRefused : Prop :=
  ∀ (s : State) (addr : Word) (width : Nat) (v : Word) (rest : List Event),
    (addr - s.config.base).toNat < 64 → (width ≠ 32 ∨ (addr - s.config.base).toNat % 4 ≠ 0) →
    step { s with pending := .regWrite addr width v :: rest } = .next { s with pending := rest, reply := .busError } ∧
    step { s with pending := .regRead addr width :: rest } = .next { s with pending := rest, reply := .busError }

/-- 10_state.md R23 to R35, 20_memory.md R58: what a host read of each register returns; a read changes nothing but the
reply. -/
def Obligations.RegisterReadsReturnTheMap : Prop :=
  ∀ (s : State) (rest : List Event),
    ∀ q ∈ [(0x00, 0), (0x04, s.status), (0x08, s.src), (0x0C, s.dst), (0x10, s.len), (0x14, s.result), (0x18, s.dinHi),
      (0x1C, s.dinLo), (0x20, s.doutHi), (0x24, s.doutLo), (0x28, s.cvHi), (0x2C, s.cvLo), (0x30, 0x42464331#32),
      (0x34, s.faddr), (0x38, 0), (0x3C, 0)],
      step { s with pending := .regRead (s.config.base + BitVec.ofNat 32 q.1) 32 :: rest } =
        .next { s with pending := rest, reply := .data q.2 }

/-- 10_state.md R25, R43: the fields of STATUS, and its value. -/
def Obligations.StatusHoldsItsFields : Prop :=
  ∀ s : State,
    s.status.extractLsb' 0 2 = (match s.life with | .unkeyed => 0#2 | .keyed => 1#2 | .zeroized => 2#2) ∧
    s.status.getLsbD 2 = s.weak ∧ s.status.getLsbD 3 = s.sticky ∧ s.status.extractLsb' 4 4 = 0 ∧
    s.status.extractLsb' 8 8 = s.err ∧ s.status.extractLsb' 16 16 = 0 ∧
    s.status = (s.err.setWidth 32 <<< 8) ||| ((BitVec.ofBool s.sticky).setWidth 32 <<< 3) |||
      ((BitVec.ofBool s.weak).setWidth 32 <<< 2) ||| s.life.code.setWidth 32

/-- 10_state.md R33, R35, R36: ID reads its constant and the reserved offsets and STATUS bits read zero; writes to the
read-only registers, to ID and to the reserved offsets are ignored and do not touch STATUS.ERR. -/
def Obligations.FixedAndReadOnlyRegistersIgnoreWrites : Prop :=
  ∀ (s : State) (v : Word) (rest : List Event),
    (∀ off ∈ [0x04, 0x14, 0x20, 0x24, 0x30, 0x34, 0x38, 0x3C],
      step { s with pending := .regWrite (s.config.base + BitVec.ofNat 32 off) 32 v :: rest } =
        .next { s with pending := rest, reply := .ack }) ∧
    step { s with pending := .regRead (s.config.base + 0x30) 32 :: rest } =
      .next { s with pending := rest, reply := .data 0x42464331 } ∧
    (∀ off ∈ [0x38, 0x3C], step { s with pending := .regRead (s.config.base + BitVec.ofNat 32 off) 32 :: rest } =
      .next { s with pending := rest, reply := .data 0 }) ∧
    s.status.extractLsb' 4 4 = 0 ∧ s.status.extractLsb' 16 16 = 0

/-- 10_state.md R26 to R28, R30, R32: a host write to an operand register sets that register and nothing else. -/
def Obligations.OperandRegisterWrites : Prop :=
  ∀ (s : State) (v : Word) (rest : List Event),
    ∀ q ∈ [(0x08, { s with src := v }), (0x0C, { s with dst := v }), (0x10, { s with len := v }),
      (0x18, { s with dinHi := v }), (0x1C, { s with dinLo := v }), (0x28, { s with cvHi := v }),
      (0x2C, { s with cvLo := v })],
      step { s with pending := .regWrite (s.config.base + BitVec.ofNat 32 q.1) 32 v :: rest } =
        .next { q.2 with pending := rest, reply := .ack }

/-- 20_memory.md R50, R61; 30_encoding.md R78: the host's own memory write reads back, and leaves every other byte and
every register alone. That a host access past the top of memory wraps to address 0 is the model's choice (log 9). -/
def Obligations.HostMemoryWriteReadsBack : Prop :=
  ∀ (s : State) (a : Word) (bs : List Byte) (rest rest' : List Event), s.mem.wf = true → bs.length ≤ 2 ^ 32 →
    ∃ t, step { s with pending := .memWrite a bs :: rest } = .next t ∧
      t = { s with mem := t.mem, pending := rest, reply := .ack } ∧
      (∀ j (h : j < bs.length), Memory.read t.mem (a + BitVec.ofNat 32 j).toNat = bs[j]) ∧
      (∀ x, (∀ j < bs.length, x ≠ (a + BitVec.ofNat 32 j).toNat) → Memory.read t.mem x = Memory.read s.mem x) ∧
      step { t with pending := .memRead a bs.length :: rest' } = .next { t with pending := rest', reply := .bytes bs }

/-- 30_encoding.md R78, R79: each pseudo-instruction that ends in a command writes its operands and runs the command. -/
def Obligations.PseudoInstructionsRunTheirCommand : Prop :=
  ∀ (s : State) (a d n : Word) (v : Block) (rest : List Event),
    ∀ q ∈ [(Pseudo.keysched a n, Instr.keysched, { s with src := a, len := n }),
      (.encBlk v, .encBlk, { s with dinHi := hi v, dinLo := lo v }),
      (.decBlk v, .decBlk, { s with dinHi := hi v, dinLo := lo v }),
      (.cbcEncBlk v, .cbcEncBlk, { s with dinHi := hi v, dinLo := lo v }),
      (.cbcDecBlk v, .cbcDecBlk, { s with dinHi := hi v, dinLo := lo v }),
      (.encBuf a d n, .encBuf, { s with src := a, dst := d, len := n }),
      (.decBuf a d n, .decBuf, { s with src := a, dst := d, len := n }),
      (.cbcEncBuf a d n, .cbcEncBuf, { s with src := a, dst := d, len := n }),
      (.cbcDecBuf a d n, .cbcDecBuf, { s with src := a, dst := d, len := n }),
      (.cvLoad a, .cvLoad, { s with src := a }), (.cvStore d, .cvStore, { s with dst := d }),
      (.padBlk v n, .padBlk, { s with dinHi := hi v, dinLo := lo v, len := n }),
      (.unpadStrict v, .unpadStrict, { s with dinHi := hi v, dinLo := lo v }),
      (.unpadLenient v n, .unpadLenient, { s with dinHi := hi v, dinLo := lo v, len := n })],
      Sys2Proof.core.run (expand q.1).length { s with pending := program s.config (expand q.1) ++ rest } =
        acknowledge (exec q.2.1 { q.2.2 with pending := rest, reply := .ack })

/-! ## Frames -/

/-- 30_encoding.md R72: what a command may write, by field; everything else is unchanged, the platform's parameters, the
pending events and the reply among it. STICKY is written only by a command that raises. The bytes that a storing command
leaves alone are the matter of BufferCommandsStoreOnlyToTheirOutput and CvStoreWritesEightBytes. -/
def Obligations.CommandsWriteOnlyWhatTheTableLists : Prop :=
  ∀ (i : Instr) (s t : State), exec i s = .next t →
    (t.src = s.src ∧ t.dst = s.dst ∧ t.len = s.len ∧ t.config = s.config ∧ t.pending = s.pending ∧ t.reply = s.reply) ∧
    (i ∉ [.keysched, .zeroize] → t.cipher = s.cipher ∧ t.kbuf = s.kbuf ∧ t.life = s.life) ∧
    (i ∉ [.keysched, .zeroize, .weakchk] → t.weak = s.weak) ∧
    (i ≠ .zeroize → t.dinHi = s.dinHi ∧ t.dinLo = s.dinLo) ∧
    (i ∉ [.encBlk, .decBlk, .cbcEncBlk, .cbcDecBlk, .padBlk, .zeroize] → t.doutHi = s.doutHi ∧ t.doutLo = s.doutLo) ∧
    (i ∉ [.cvLoad, .cbcEncBlk, .cbcDecBlk, .cbcEncBuf, .cbcDecBuf, .zeroize] → t.cvHi = s.cvHi ∧ t.cvLo = s.cvLo) ∧
    (i ∉ [.encBuf, .decBuf, .cbcEncBuf, .cbcDecBuf, .weakchk, .zeroize, .padBlk, .unpadStrict, .unpadLenient] →
      t.result = s.result) ∧
    (t.err = 0 → t.sticky = s.sticky) ∧
    (t.err ≠ 0x07 → t.faddr = s.faddr) ∧
    (i ∉ [.keysched, .encBuf, .decBuf, .cbcEncBuf, .cbcDecBuf, .cvLoad, .cvStore] → t.err ≠ 0x07) ∧
    (i ∉ [.encBuf, .decBuf, .cbcEncBuf, .cbcDecBuf, .cvStore] → t.mem = s.mem)

/-- 60_exceptions.md R222: an error of a command other than KEYSCHED and the buffer commands changes ERR, STICKY and, for
BUS_ERROR, FADDR; KEYSCHED's own errors also clear the boxes and leave the core unkeyed. -/
def Obligations.ErrorsChangeNothingElse : Prop :=
  ∀ (i : Instr) (s t : State), exec i s = .next t → t.err ≠ 0 →
    t.sticky = true ∧
    (t.err ≠ 0x07 → t.faddr = s.faddr) ∧
    (i ∉ Instr.keysched :: bufferCommands → t = { s with err := t.err, sticky := true, faddr := t.faddr }) ∧
    (i = .keysched → t.err ≠ 0x04 →
      (∀ w < 1042, t.cipher.wordAt w = 0) ∧ (∀ j : Fin 56, t.kbuf[j] = 0) ∧
      t = { s with
          cipher := t.cipher, kbuf := t.kbuf, life := .unkeyed, weak := false, err := t.err, sticky := true,
          faddr := t.faddr })

/-- 20_memory.md R65, R55: a buffer command stores to no byte outside `DST + 0 … DST + n - 1`, with
`n = LEN - (LEN mod 8)`, whether it ends well or not. -/
def Obligations.BufferCommandsStoreOnlyToTheirOutput : Prop :=
  ∀ i ∈ bufferCommands, ∀ s t : State, exec i s = .next t →
    ∀ x, (∀ j < s.len.toNat - s.len.toNat % 8, x ≠ (s.dst + BitVec.ofNat 32 j).toNat) →
      Memory.read t.mem x = Memory.read s.mem x

/-- 43_cbc.md R179: the raw commands neither read nor write CV. -/
def Obligations.RawCommandsNeverTouchTheChainingValue : Prop :=
  ∀ i ∈ [Instr.encBlk, .decBlk, .encBuf, .decBuf], ∀ (s t : State) (a b : Word), exec i s = .next t →
    t.cvHi = s.cvHi ∧ t.cvLo = s.cvLo ∧
      exec i { s with cvHi := a, cvLo := b } = .next { t with cvHi := a, cvLo := b }

/-- 10_state.md R37 to R39, 60_exceptions.md R230: no event but the run of one of the nine commands that need a key lets
the boxes or the key buffer show: two states that differ in them alone go on to states that differ in them alone, and those
give the host the same observation (70_reset_and_hazards.md R263). -/
def Obligations.KeyMaterialShowsOnlyThroughKeyCommands : Prop :=
  ∀ (s t t' : State) (c : CipherState) (k : Vector Byte 56) (e : Event) (rest : List Event),
    (∀ v, e.commandWord? s.config = some v → ∀ i ∈ needsKey, v ≠ encode i) →
    step { s with pending := e :: rest } = .next t →
    step { s with cipher := c, kbuf := k, pending := e :: rest } = .next t' →
    { t' with cipher := t.cipher, kbuf := t.kbuf } = t ∧ t'.observe = t.observe

/-! ## Memory accesses and the chaining value in memory -/

/-- 20_memory.md R52, R54: an 8-byte access checks its bytes in ascending order and answers the first that is not admitted;
otherwise it moves the 8 bytes, most significant first, and no other byte. -/
def Obligations.BlockAccessesAreCheckedAndBigEndian : Prop :=
  ∀ (s : State) (a f : Word) (v : Block),
    (RefusedAt s.config a 8 f → memReadBlock s a = .error f ∧ memWriteBlock s a v = .error f) ∧
    (Admitted s.config a 8 →
      (∃ b, memReadBlock s a = .ok b ∧
        ∀ i < 8, b.extractLsb' (56 - 8 * i) 8 = Memory.read s.mem (a + BitVec.ofNat 32 i).toNat) ∧
      (s.mem.wf = true → ∃ m : Memory, memWriteBlock s a v = .ok { s with mem := m } ∧ m.wf = true ∧
        (∀ i < 8, Memory.read m (a + BitVec.ofNat 32 i).toNat = v.extractLsb' (56 - 8 * i) 8) ∧
        ∀ x, (∀ i < 8, x ≠ (a + BitVec.ofNat 32 i).toNat) → Memory.read m x = Memory.read s.mem x))

/-- 43_cbc.md R171: CV_LOAD. -/
def Obligations.CvLoadReadsEightBytes : Prop :=
  encode .cvLoad = 0x08 ∧ ∀ s : State,
    let byte := fun k : Nat => Memory.read s.mem (s.src + BitVec.ofNat 32 k).toNat
    (Admitted s.config s.src 8 →
      exec .cvLoad s = .next { s with
          cvHi := byte 0 ++ byte 1 ++ byte 2 ++ byte 3, cvLo := byte 4 ++ byte 5 ++ byte 6 ++ byte 7, err := 0 }) ∧
    ∀ f, RefusedAt s.config s.src 8 f → exec .cvLoad s = .next { s with faddr := f, err := 0x07, sticky := true }

/-- 43_cbc.md R172: CV_STORE, its frame in memory included. -/
def Obligations.CvStoreWritesEightBytes : Prop :=
  encode .cvStore = 0x09 ∧ ∀ s : State,
    (s.mem.wf = true → Admitted s.config s.dst 8 →
      ∃ m : Memory, exec .cvStore s = .next { s with mem := m, err := 0 } ∧
        (∀ k < 8, Memory.read m (s.dst + BitVec.ofNat 32 k).toNat = (s.cvHi ++ s.cvLo).extractLsb' (56 - 8 * k) 8) ∧
        ∀ x, (∀ k < 8, x ≠ (s.dst + BitVec.ofNat 32 k).toNat) → Memory.read m x = Memory.read s.mem x) ∧
    ∀ f, RefusedAt s.config s.dst 8 f → exec .cvStore s = .next { s with faddr := f, err := 0x07, sticky := true }

/-! ## The cipher -/

/-- 41_block_transform.md R120, R121: the round function, in natural numbers. -/
def Obligations.RoundFunctionAddsXorsAdds : Prop :=
  ∀ (c : CipherState) (x : Word),
    let w := fun (b : Fin 4) (k : Nat) => (c.s[b][k]?.getD 0).toNat
    (c.f x).toNat =
      ((((w 0 (x.toNat / 2 ^ 24) + w 1 (x.toNat / 2 ^ 16 % 256)) % 2 ^ 32) ^^^ w 2 (x.toNat / 2 ^ 8 % 256)) +
        w 3 (x.toNat % 256)) % 2 ^ 32

/-- 41_block_transform.md R122: Encrypt is 16 rounds with P[0] … P[15], the last swap undone, then P[16] into the right
half and P[17] into the left. -/
def Obligations.EncryptIsSixteenRounds : Prop :=
  ∀ (c : CipherState) (l r : Word),
    c.encrypt (l, r) =
      ((afterRounds c (fun n => n) l r 16).2 ^^^ c.p[17], (afterRounds c (fun n => n) l r 16).1 ^^^ c.p[16])

/-- 41_block_transform.md R123: Decrypt is the same with P[17] … P[2], then P[1] and P[0]; it is Encrypt with the P-box
reversed. -/
def Obligations.DecryptReversesThePBox : Prop :=
  ∀ (c : CipherState) (l r : Word),
    c.decrypt (l, r) =
      ((afterRounds c (fun n => 17 - n) l r 16).2 ^^^ c.p[0], (afterRounds c (fun n => 17 - n) l r 16).1 ^^^ c.p[1]) ∧
    c.decrypt (l, r) = ({ c with p := c.p.reverse } : CipherState).encrypt (l, r)

/-- 41_block_transform.md R124: for every CipherState each transform undoes the other, so Encrypt is a bijection on
blocks. -/
def Obligations.DecryptInvertsEncrypt : Prop :=
  ∀ c : CipherState,
    (∀ l r : Word, c.decrypt (c.encrypt (l, r)) = (l, r) ∧ c.encrypt (c.decrypt (l, r)) = (l, r)) ∧
    Function.Bijective c.encryptBlock

/-! ## The key schedule -/

/-- 40_key_schedule.md R104: MixKey, with the running key index. -/
def Obligations.MixKeyWrapsTheKeyByteByByte : Prop :=
  ∀ (kbuf : Vector Byte 56) (kl : Nat) (c : CipherState), 1 ≤ kl → kl ≤ 56 →
    let byte := fun t : Nat => kbuf[runningIndex kl t]?.getD 0
    (mixKey kbuf kl c).s = c.s ∧
    ∀ i (h : i < 18), (mixKey kbuf kl c).p[i] =
      c.p[i] ^^^ (byte (4 * i) ++ byte (4 * i + 1) ++ byte (4 * i + 2) ++ byte (4 * i + 3))

/-- 40_key_schedule.md R105: FillBoxes is 521 encryptions of the running block, from zero, each with the boxes as the
writes before left them; the n-th writes its halves to the n-th pair of the 1042 words in the order P, S[0], …, S[3]. -/
def Obligations.FillBoxesWritesPairByPair : Prop :=
  ∀ c : CipherState, ∃ (boxes : Nat → CipherState) (lr : Nat → Word × Word),
    boxes 0 = c ∧ lr 0 = (0, 0) ∧ boxes 521 = fillBoxes c ∧
    ∀ n < 521, lr (n + 1) = (boxes n).encrypt (lr n) ∧
      ∀ w < 1042, (boxes (n + 1)).wordAt w =
        if w = 2 * n then (lr (n + 1)).1 else if w = 2 * n + 1 then (lr (n + 1)).2 else (boxes n).wordAt w

/-- 40_key_schedule.md R103, R106: KEYSCHED, on every path. -/
def Obligations.KeyschedFollowsItsRule : Prop :=
  encode .keysched = 0x01 ∧ ∀ s : State,
    (s.life = .zeroized → exec .keysched s = .next { s with err := 0x04, sticky := true }) ∧
    (s.life ≠ .zeroized →
      ((s.len = 0 ∨ 56 < s.len.toNat) →
        exec .keysched s = .next { s with
            cipher := CipherState.zero, kbuf := Vector.replicate 56 0, life := .unkeyed, weak := false, err := 0x01,
            sticky := true }) ∧
      (1 ≤ s.len.toNat → s.len.toNat ≤ 56 →
        (∀ j < s.len.toNat, Admitted s.config s.src j → s.config.admits (s.src + BitVec.ofNat 32 j) = false →
          exec .keysched s = .next { s with
              cipher := CipherState.zero, kbuf := Vector.replicate 56 0, life := .unkeyed, weak := false,
              faddr := s.src + BitVec.ofNat 32 j, err := 0x07, sticky := true }) ∧
        (Admitted s.config s.src s.len.toNat → ∀ kbuf : Vector Byte 56,
          (∀ j (h : j < 56), j < s.len.toNat → kbuf[j] = Memory.read s.mem (s.src + BitVec.ofNat 32 j).toNat) →
          exec .keysched s = .next { s with
              cipher := fillBoxes (mixKey kbuf s.len.toNat CipherState.init), kbuf := Vector.replicate 56 0,
              life := .keyed, weak := false, err := 0 })))

/-- 40_key_schedule.md R107: a key schedule depends on the key bytes alone: not on the boxes before, nor on where the bytes
stand. -/
def Obligations.SameKeyBytesSameBoxes : Prop :=
  ∀ s s' : State, s.life ≠ .zeroized → s'.life ≠ .zeroized → 1 ≤ s.len.toNat → s.len.toNat ≤ 56 → s'.len = s.len →
    Admitted s.config s.src s.len.toNat → Admitted s'.config s'.src s.len.toNat →
    (∀ j < s.len.toNat, Memory.read s.mem (s.src + BitVec.ofNat 32 j).toNat =
      Memory.read s'.mem (s'.src + BitVec.ofNat 32 j).toNat) →
    ∃ t t', exec .keysched s = .next t ∧ exec .keysched s' = .next t' ∧ t.life = .keyed ∧ t'.life = .keyed ∧
      t.cipher = t'.cipher

/-- 40_key_schedule.md R109: two keys whose cyclic extensions to 72 bytes are equal give the same boxes (a one-byte zero
key and a longer all-zero key among them). -/
def Obligations.CyclicallyEqualKeysSameBoxes : Prop :=
  ∀ s s' : State, s.life ≠ .zeroized → s'.life ≠ .zeroized → 1 ≤ s.len.toNat → s.len.toNat ≤ 56 →
    1 ≤ s'.len.toNat → s'.len.toNat ≤ 56 →
    Admitted s.config s.src s.len.toNat → Admitted s'.config s'.src s'.len.toNat →
    (∀ t < 72, Memory.read s.mem (s.src + BitVec.ofNat 32 (t % s.len.toNat)).toNat =
      Memory.read s'.mem (s'.src + BitVec.ofNat 32 (t % s'.len.toNat)).toNat) →
    ∃ t t', exec .keysched s = .next t ∧ exec .keysched s' = .next t' ∧ t.cipher = t'.cipher

/-! ## Block commands -/

/-- 41_block_transform.md R125: ENC_BLK. -/
def Obligations.EncBlkEncryptsDin : Prop :=
  encode .encBlk = 0x02 ∧ ∀ s : State,
    (s.life = .keyed → exec .encBlk s = .next { s with
        doutHi := (s.cipher.encrypt (s.dinHi, s.dinLo)).1, doutLo := (s.cipher.encrypt (s.dinHi, s.dinLo)).2,
        err := 0 }) ∧
    (s.life = .zeroized → exec .encBlk s = .next { s with err := 0x04, sticky := true }) ∧
    (s.life = .unkeyed → exec .encBlk s = .next { s with err := 0x03, sticky := true })

/-- 41_block_transform.md R126: DEC_BLK; of an ENC_BLK output it gives the block back. -/
def Obligations.DecBlkDecryptsDin : Prop :=
  encode .decBlk = 0x03 ∧ ∀ s : State,
    (s.life = .keyed →
      exec .decBlk s = .next { s with
          doutHi := (s.cipher.decrypt (s.dinHi, s.dinLo)).1, doutLo := (s.cipher.decrypt (s.dinHi, s.dinLo)).2,
          err := 0 } ∧
      ∃ t, exec .encBlk s = .next t ∧
        exec .decBlk { t with dinHi := t.doutHi, dinLo := t.doutLo } =
          .next { t with dinHi := t.doutHi, dinLo := t.doutLo, doutHi := s.dinHi, doutLo := s.dinLo }) ∧
    (s.life = .zeroized → exec .decBlk s = .next { s with err := 0x04, sticky := true }) ∧
    (s.life = .unkeyed → exec .decBlk s = .next { s with err := 0x03, sticky := true })

/-- 43_cbc.md R173: CBC_ENC_BLK. -/
def Obligations.CbcEncBlkChains : Prop :=
  encode .cbcEncBlk = 0x0A ∧ ∀ s : State,
    let lr := s.cipher.encrypt (s.dinHi ^^^ s.cvHi, s.dinLo ^^^ s.cvLo)
    (s.life = .keyed → exec .cbcEncBlk s = .next { s with
        doutHi := lr.1, doutLo := lr.2, cvHi := lr.1, cvLo := lr.2, err := 0 }) ∧
    (s.life = .zeroized → exec .cbcEncBlk s = .next { s with err := 0x04, sticky := true }) ∧
    (s.life = .unkeyed → exec .cbcEncBlk s = .next { s with err := 0x03, sticky := true })

/-- 43_cbc.md R174: CBC_DEC_BLK. -/
def Obligations.CbcDecBlkChains : Prop :=
  encode .cbcDecBlk = 0x0B ∧ ∀ s : State,
    let lr := s.cipher.decrypt (s.dinHi, s.dinLo)
    (s.life = .keyed → exec .cbcDecBlk s = .next { s with
        doutHi := lr.1 ^^^ s.cvHi, doutLo := lr.2 ^^^ s.cvLo, cvHi := s.dinHi, cvLo := s.dinLo, err := 0 }) ∧
    (s.life = .zeroized → exec .cbcDecBlk s = .next { s with err := 0x04, sticky := true }) ∧
    (s.life = .unkeyed → exec .cbcDecBlk s = .next { s with err := 0x03, sticky := true })

/-! ## Buffer commands -/

/-- 41_block_transform.md R127: ENC_BUF, ending well, with a bus error at block `k`, and its state errors. -/
def Obligations.EncBufGoesBlockByBlock : Prop :=
  encode .encBuf = 0x04 ∧ ∀ s : State,
    (s.life = .keyed →
      let m := fun k => (afterBlocks (fun _ inp => s.cipher.encryptBlock inp) (fun cv _ _ => cv) s k).1
      ((∀ j < s.len.toNat / 8, BlockAdmitted s j) →
        exec .encBuf s = .next { s with mem := m (s.len.toNat / 8), result := s.len - s.len % 8, err := 0 }) ∧
      ∀ k < s.len.toNat / 8, ∀ f, BlockRefusedAt s k f →
        exec .encBuf s = .next { s with
            mem := m k, result := BitVec.ofNat 32 (8 * k), faddr := f, err := 0x07, sticky := true }) ∧
    (s.life = .zeroized → exec .encBuf s = .next { s with err := 0x04, sticky := true }) ∧
    (s.life = .unkeyed → exec .encBuf s = .next { s with err := 0x03, sticky := true })

/-- 41_block_transform.md R128: DEC_BUF, likewise. -/
def Obligations.DecBufGoesBlockByBlock : Prop :=
  encode .decBuf = 0x05 ∧ ∀ s : State,
    (s.life = .keyed →
      let m := fun k => (afterBlocks (fun _ inp => s.cipher.decryptBlock inp) (fun cv _ _ => cv) s k).1
      ((∀ j < s.len.toNat / 8, BlockAdmitted s j) →
        exec .decBuf s = .next { s with mem := m (s.len.toNat / 8), result := s.len - s.len % 8, err := 0 }) ∧
      ∀ k < s.len.toNat / 8, ∀ f, BlockRefusedAt s k f →
        exec .decBuf s = .next { s with
            mem := m k, result := BitVec.ofNat 32 (8 * k), faddr := f, err := 0x07, sticky := true }) ∧
    (s.life = .zeroized → exec .decBuf s = .next { s with err := 0x04, sticky := true }) ∧
    (s.life = .unkeyed → exec .decBuf s = .next { s with err := 0x03, sticky := true })

/-- 43_cbc.md R175: CBC_ENC_BUF; after `k` blocks CV is the output block of block `k - 1`. -/
def Obligations.CbcEncBufGoesBlockByBlock : Prop :=
  encode .cbcEncBuf = 0x0C ∧ ∀ s : State,
    (s.life = .keyed →
      let a := afterBlocks (fun cv inp => s.cipher.encryptBlock (inp ^^^ cv)) (fun _ _ out => out) s
      ((∀ j < s.len.toNat / 8, BlockAdmitted s j) →
        exec .cbcEncBuf s = .next { s with
            mem := (a (s.len.toNat / 8)).1, cvHi := (a (s.len.toNat / 8)).2.extractLsb' 32 32,
            cvLo := (a (s.len.toNat / 8)).2.extractLsb' 0 32, result := s.len - s.len % 8, err := 0 }) ∧
      ∀ k < s.len.toNat / 8, ∀ f, BlockRefusedAt s k f →
        exec .cbcEncBuf s = .next { s with
            mem := (a k).1, cvHi := (a k).2.extractLsb' 32 32, cvLo := (a k).2.extractLsb' 0 32,
            result := BitVec.ofNat 32 (8 * k), faddr := f, err := 0x07, sticky := true }) ∧
    (s.life = .zeroized → exec .cbcEncBuf s = .next { s with err := 0x04, sticky := true }) ∧
    (s.life = .unkeyed → exec .cbcEncBuf s = .next { s with err := 0x03, sticky := true })

/-- 43_cbc.md R176: CBC_DEC_BUF; after `k` blocks CV is the input block of block `k - 1`. -/
def Obligations.CbcDecBufGoesBlockByBlock : Prop :=
  encode .cbcDecBuf = 0x0D ∧ ∀ s : State,
    (s.life = .keyed →
      let a := afterBlocks (fun cv inp => s.cipher.decryptBlock inp ^^^ cv) (fun _ inp _ => inp) s
      ((∀ j < s.len.toNat / 8, BlockAdmitted s j) →
        exec .cbcDecBuf s = .next { s with
            mem := (a (s.len.toNat / 8)).1, cvHi := (a (s.len.toNat / 8)).2.extractLsb' 32 32,
            cvLo := (a (s.len.toNat / 8)).2.extractLsb' 0 32, result := s.len - s.len % 8, err := 0 }) ∧
      ∀ k < s.len.toNat / 8, ∀ f, BlockRefusedAt s k f →
        exec .cbcDecBuf s = .next { s with
            mem := (a k).1, cvHi := (a k).2.extractLsb' 32 32, cvLo := (a k).2.extractLsb' 0 32,
            result := BitVec.ofNat 32 (8 * k), faddr := f, err := 0x07, sticky := true }) ∧
    (s.life = .zeroized → exec .cbcDecBuf s = .next { s with err := 0x04, sticky := true }) ∧
    (s.life = .unkeyed → exec .cbcDecBuf s = .next { s with err := 0x03, sticky := true })

/-- 43_cbc.md R177: a chained buffer command over `a + b` blocks is the same as one over the first `a` blocks, ending well,
and then one over the next `b`. -/
def Obligations.ChainedStreamsMayBeSplit : Prop :=
  ∀ i ∈ [Instr.cbcEncBuf, .cbcDecBuf], ∀ (s t u w : State) (a b : Nat), 8 * (a + b) < 2 ^ 32 →
    s.len = BitVec.ofNat 32 (8 * (a + b)) →
    exec i { s with len := BitVec.ofNat 32 (8 * a) } = .next t → t.err = 0 →
    exec i { t with
        src := s.src + BitVec.ofNat 32 (8 * a), dst := s.dst + BitVec.ofNat 32 (8 * a),
        len := BitVec.ofNat 32 (8 * b) } = .next u →
    exec i s = .next w →
    w.mem = u.mem ∧ w.cvHi = u.cvHi ∧ w.cvLo = u.cvLo ∧ w.err = u.err ∧ w.faddr = u.faddr ∧ w.sticky = u.sticky ∧
      w.result = BitVec.ofNat 32 (8 * a) + u.result

/-- 43_cbc.md R177: a chained block command is one turn of the buffer loop. -/
def Obligations.ChainedBlockIsOneTurnOfTheBuffer : Prop :=
  ∀ q ∈ [(Instr.cbcEncBlk, Instr.cbcEncBuf), (.cbcDecBlk, .cbcDecBuf)], ∀ s : State, s.life = .keyed →
    s.mem.wf = true → s.len = 8 → BlockAdmitted s 0 → s.din = s.mem.readBlock s.src →
    ∃ t u, exec q.1 s = .next t ∧ exec q.2 s = .next u ∧ u.mem.readBlock s.dst = t.dout ∧ u.cv = t.cv

/-- 20_memory.md R67: working in place gives the bytes, the chaining value and the count that disjoint buffers give. -/
def Obligations.InPlaceEqualsDisjoint : Prop :=
  ∀ i ∈ bufferCommands, ∀ (s t t' : State) (d : Word), s.mem.wf = true → s.life = .keyed → s.dst = s.src →
    (∀ j < s.len.toNat / 8, BlockAdmitted s j ∧ BlockAdmitted { s with dst := d } j) →
    (∀ j < s.len.toNat - s.len.toNat % 8, ∀ k < s.len.toNat - s.len.toNat % 8,
      s.src + BitVec.ofNat 32 j ≠ d + BitVec.ofNat 32 k) →
    exec i s = .next t → exec i { s with dst := d } = .next t' →
    (∀ j < s.len.toNat - s.len.toNat % 8, Memory.read t.mem (s.src + BitVec.ofNat 32 j).toNat =
      Memory.read t'.mem (d + BitVec.ofNat 32 j).toNat) ∧
    t.cv = t'.cv ∧ t.result = t'.result

/-- 41_block_transform.md R124, 43_cbc.md R178: decrypting in place what was encrypted in place restores every byte of
memory, raw and, with the start CV restored, chained; the chained end CVs agree. -/
def Obligations.BufferRoundTripInPlace : Prop :=
  ∀ s : State, s.mem.wf = true → s.life = .keyed → s.dst = s.src → (∀ j < s.len.toNat / 8, BlockAdmitted s j) →
    (∃ t, exec .encBuf s = .next t ∧ exec .decBuf t = .next { t with mem := s.mem }) ∧
    (∃ t, exec .cbcEncBuf s = .next t ∧
      exec .cbcDecBuf { t with cvHi := s.cvHi, cvLo := s.cvLo } = .next { t with mem := s.mem })

/-! ## Weak keys, the zeroizer, NOP -/

/-- 42_weak_key_and_zeroize.md R150: WEAKCHK. -/
def Obligations.WeakchkFindsDuplicates : Prop :=
  encode .weakchk = 0x06 ∧ ∀ s : State,
    (s.life = .keyed → ∃ w : Bool,
      (w = true ↔ ∃ (b : Fin 4) (i j : Fin 256), i < j ∧ s.cipher.s[b][i] = s.cipher.s[b][j]) ∧
      exec .weakchk s = .next { s with weak := w, result := if w then 1 else 0, err := 0 }) ∧
    (s.life = .zeroized → exec .weakchk s = .next { s with err := 0x04, sticky := true }) ∧
    (s.life = .unkeyed → exec .weakchk s = .next { s with err := 0x03, sticky := true })

/-- 42_weak_key_and_zeroize.md R152: ZEROIZE, in every state. -/
def Obligations.ZeroizeErasesEverythingKeyed : Prop :=
  encode .zeroize = 0x07 ∧ ∀ s : State, ∃ t, exec .zeroize s = .next t ∧
    (∀ i : Fin 18, t.cipher.p[i] = 0) ∧ (∀ (b : Fin 4) (k : Fin 256), t.cipher.s[b][k] = 0) ∧
    (∀ i : Fin 56, t.kbuf[i] = 0) ∧
    t = { s with
        cipher := t.cipher, kbuf := t.kbuf, cvHi := 0, cvLo := 0, dinHi := 0, dinLo := 0, doutHi := 0, doutLo := 0,
        result := 0, weak := false, life := .zeroized, err := 0 }

/-- 42_weak_key_and_zeroize.md R154: NOP, in every state. -/
def Obligations.NopOnlyClearsErr : Prop := encode .nop = 0x00 ∧ ∀ s : State, exec .nop s = .next { s with err := 0 }

/-! ## Padding -/

/-- 44_padding.md R200: PAD_BLK. -/
def Obligations.PadBlkFillsWithTheCount : Prop :=
  encode .padBlk = 0x0E ∧ ∀ s : State,
    (s.len.toNat ≤ 7 → ∃ out : Block,
      exec .padBlk s = .next { s with
          doutHi := out.extractLsb' 32 32, doutLo := out.extractLsb' 0 32,
          result := BitVec.ofNat 32 (8 - s.len.toNat), err := 0 } ∧
      ∀ i < 8, (out.extractLsb' (56 - 8 * i) 8).toNat =
        if i < s.len.toNat then ((s.dinHi ++ s.dinLo).extractLsb' (56 - 8 * i) 8).toNat else 8 - s.len.toNat) ∧
    (7 < s.len.toNat → exec .padBlk s = .next { s with err := 0x06, sticky := true })

/-- 44_padding.md R201: UNPAD_STRICT. -/
def Obligations.UnpadStrictChecksEveryPadByte : Prop :=
  encode .unpadStrict = 0x0F ∧ ∀ s : State,
    let byte := fun i => ((s.dinHi ++ s.dinLo).extractLsb' (56 - 8 * i) 8).toNat
    ((byte 7 ≤ 8 ∧ ∀ i, 8 - byte 7 ≤ i → i < 8 → byte i = byte 7) →
      exec .unpadStrict s = .next { s with result := BitVec.ofNat 32 (8 - byte 7), err := 0 }) ∧
    ((8 < byte 7 ∨ ∃ i, 8 - byte 7 ≤ i ∧ i < 8 ∧ byte i ≠ byte 7) →
      exec .unpadStrict s = .next { s with err := 0x02, sticky := true })

/-- 44_padding.md R202: UNPAD_LENIENT. -/
def Obligations.UnpadLenientClampsTheCount : Prop :=
  encode .unpadLenient = 0x10 ∧ ∀ s : State,
    let n := if 8 < s.dinLo.toNat % 256 then 0 else s.dinLo.toNat % 256
    exec .unpadLenient s =
      .next { s with result := if n ≤ s.len.toNat then s.len - BitVec.ofNat 32 n else 0, err := 0 }

/-- 44_padding.md R203, R204: unpadding the block PAD_BLK made gives the count of data bytes back, strictly, and leniently
over a buffer of `len` bytes that ends with it. -/
def Obligations.UnpaddingUndoesPadding : Prop :=
  ∀ (s : State) (len : Word), s.len.toNat ≤ 7 → 8 ≤ len.toNat → ∃ t, exec .padBlk s = .next t ∧
    exec .unpadStrict { t with dinHi := t.doutHi, dinLo := t.doutLo } =
      .next { t with dinHi := t.doutHi, dinLo := t.doutLo, result := s.len } ∧
    exec .unpadLenient { t with dinHi := t.doutHi, dinLo := t.doutLo, len := len } =
      .next { t with dinHi := t.doutHi, dinLo := t.doutLo, len := len, result := len - t.result }

/-- 44_padding.md R205: the length laws of the stream frame and of the string codec, the pad count being PAD_BLK's. -/
def Obligations.FrameLengthLaws : Prop :=
  (∀ (m : Nat) (s : State), s.len = BitVec.ofNat 32 (m % 8) → ∃ t, exec .padBlk s = .next t ∧
    8 + (m + t.result.toNat) = m - m % 8 + 16 ∧ (m + t.result.toNat) % 8 = 0) ∧
  (∀ (n : Nat) (s : State), s.len = BitVec.ofNat 32 (2 * n % 8) → ∃ t, exec .padBlk s = .next t ∧
    (2 * n - 2 * n % 8 + 8) - 2 * n = t.result.toNat ∧ t.result.toNat = 8 - 2 * n % 8 ∧
    t.result.toNat ∈ [2, 4, 6, 8])

/-- 44_padding.md R203, R204, R205: whatever the IV and the data, a keyed core writes a frame of the stated length that
begins with the IV and leaves the core zeroized, and a core with the same boxes reads the data back. The two host
procedures, `writeFrame` and `readFrame`, are the model's reading of R203 and R204 (log 14). -/
def Obligations.FrameRoundTrip : Prop :=
  ∀ (s r : State) (iv : Block) (data : List Byte), s.life = .keyed → r.life = .keyed → r.cipher = s.cipher →
    ∃ (frame : List Byte) (t u : State), writeFrame iv data s = some (frame, t) ∧
      frame.length = data.length - data.length % 8 + 16 ∧ frame.take 8 = bytesOf iv ∧ t.life = .zeroized ∧
      readFrame frame r = some (data, u)
end

