-- ==== Sys2Proof/Laws/State.lean ====
section
/-! SUPPORT. One lemma per field of State and per named update: what the update leaves in the field. -/

namespace Sys2Proof.Machine

variable (s : State)

/-! ## clearErr: `STATUS.ERR <- 0` -/

@[simp] theorem State.clearErr_life : (s.clearErr).life = s.life := rfl
@[simp] theorem State.clearErr_cipher : (s.clearErr).cipher = s.cipher := rfl
@[simp] theorem State.clearErr_kbuf : (s.clearErr).kbuf = s.kbuf := rfl
@[simp] theorem State.clearErr_src : (s.clearErr).src = s.src := rfl
@[simp] theorem State.clearErr_dst : (s.clearErr).dst = s.dst := rfl
@[simp] theorem State.clearErr_len : (s.clearErr).len = s.len := rfl
@[simp] theorem State.clearErr_result : (s.clearErr).result = s.result := rfl
@[simp] theorem State.clearErr_dinHi : (s.clearErr).dinHi = s.dinHi := rfl
@[simp] theorem State.clearErr_dinLo : (s.clearErr).dinLo = s.dinLo := rfl
@[simp] theorem State.clearErr_doutHi : (s.clearErr).doutHi = s.doutHi := rfl
@[simp] theorem State.clearErr_doutLo : (s.clearErr).doutLo = s.doutLo := rfl
@[simp] theorem State.clearErr_cvHi : (s.clearErr).cvHi = s.cvHi := rfl
@[simp] theorem State.clearErr_cvLo : (s.clearErr).cvLo = s.cvLo := rfl
@[simp] theorem State.clearErr_faddr : (s.clearErr).faddr = s.faddr := rfl
@[simp] theorem State.clearErr_weak : (s.clearErr).weak = s.weak := rfl
@[simp] theorem State.clearErr_sticky : (s.clearErr).sticky = s.sticky := rfl
@[simp] theorem State.clearErr_err : (s.clearErr).err = 0 := rfl
@[simp] theorem State.clearErr_mem : (s.clearErr).mem = s.mem := rfl
@[simp] theorem State.clearErr_config : (s.clearErr).config = s.config := rfl
@[simp] theorem State.clearErr_pending : (s.clearErr).pending = s.pending := rfl
@[simp] theorem State.clearErr_reply : (s.clearErr).reply = s.reply := rfl

/-! ## reportError: what an error reports -/

@[simp] theorem State.reportError_life (e : ErrorCause) : (s.reportError e).life = s.life := rfl
@[simp] theorem State.reportError_cipher (e : ErrorCause) : (s.reportError e).cipher = s.cipher := rfl
@[simp] theorem State.reportError_kbuf (e : ErrorCause) : (s.reportError e).kbuf = s.kbuf := rfl
@[simp] theorem State.reportError_src (e : ErrorCause) : (s.reportError e).src = s.src := rfl
@[simp] theorem State.reportError_dst (e : ErrorCause) : (s.reportError e).dst = s.dst := rfl
@[simp] theorem State.reportError_len (e : ErrorCause) : (s.reportError e).len = s.len := rfl
@[simp] theorem State.reportError_result (e : ErrorCause) : (s.reportError e).result = s.result := rfl
@[simp] theorem State.reportError_dinHi (e : ErrorCause) : (s.reportError e).dinHi = s.dinHi := rfl
@[simp] theorem State.reportError_dinLo (e : ErrorCause) : (s.reportError e).dinLo = s.dinLo := rfl
@[simp] theorem State.reportError_doutHi (e : ErrorCause) : (s.reportError e).doutHi = s.doutHi := rfl
@[simp] theorem State.reportError_doutLo (e : ErrorCause) : (s.reportError e).doutLo = s.doutLo := rfl
@[simp] theorem State.reportError_cvHi (e : ErrorCause) : (s.reportError e).cvHi = s.cvHi := rfl
@[simp] theorem State.reportError_cvLo (e : ErrorCause) : (s.reportError e).cvLo = s.cvLo := rfl
@[simp] theorem State.reportError_faddr (e : ErrorCause) : (s.reportError e).faddr = s.faddr := rfl
@[simp] theorem State.reportError_weak (e : ErrorCause) : (s.reportError e).weak = s.weak := rfl
@[simp] theorem State.reportError_sticky (e : ErrorCause) : (s.reportError e).sticky = true := rfl
@[simp] theorem State.reportError_err (e : ErrorCause) : (s.reportError e).err = e.code := rfl
@[simp] theorem State.reportError_mem (e : ErrorCause) : (s.reportError e).mem = s.mem := rfl
@[simp] theorem State.reportError_config (e : ErrorCause) : (s.reportError e).config = s.config := rfl
@[simp] theorem State.reportError_pending (e : ErrorCause) : (s.reportError e).pending = s.pending := rfl
@[simp] theorem State.reportError_reply (e : ErrorCause) : (s.reportError e).reply = s.reply := rfl

/-! ## setWeak: `WEAK <- w` -/

@[simp] theorem State.setWeak_life (w : Bool) : (s.setWeak w).life = s.life := rfl
@[simp] theorem State.setWeak_cipher (w : Bool) : (s.setWeak w).cipher = s.cipher := rfl
@[simp] theorem State.setWeak_kbuf (w : Bool) : (s.setWeak w).kbuf = s.kbuf := rfl
@[simp] theorem State.setWeak_src (w : Bool) : (s.setWeak w).src = s.src := rfl
@[simp] theorem State.setWeak_dst (w : Bool) : (s.setWeak w).dst = s.dst := rfl
@[simp] theorem State.setWeak_len (w : Bool) : (s.setWeak w).len = s.len := rfl
@[simp] theorem State.setWeak_result (w : Bool) : (s.setWeak w).result = s.result := rfl
@[simp] theorem State.setWeak_dinHi (w : Bool) : (s.setWeak w).dinHi = s.dinHi := rfl
@[simp] theorem State.setWeak_dinLo (w : Bool) : (s.setWeak w).dinLo = s.dinLo := rfl
@[simp] theorem State.setWeak_doutHi (w : Bool) : (s.setWeak w).doutHi = s.doutHi := rfl
@[simp] theorem State.setWeak_doutLo (w : Bool) : (s.setWeak w).doutLo = s.doutLo := rfl
@[simp] theorem State.setWeak_cvHi (w : Bool) : (s.setWeak w).cvHi = s.cvHi := rfl
@[simp] theorem State.setWeak_cvLo (w : Bool) : (s.setWeak w).cvLo = s.cvLo := rfl
@[simp] theorem State.setWeak_faddr (w : Bool) : (s.setWeak w).faddr = s.faddr := rfl
@[simp] theorem State.setWeak_weak (w : Bool) : (s.setWeak w).weak = w := rfl
@[simp] theorem State.setWeak_sticky (w : Bool) : (s.setWeak w).sticky = s.sticky := rfl
@[simp] theorem State.setWeak_err (w : Bool) : (s.setWeak w).err = s.err := rfl
@[simp] theorem State.setWeak_mem (w : Bool) : (s.setWeak w).mem = s.mem := rfl
@[simp] theorem State.setWeak_config (w : Bool) : (s.setWeak w).config = s.config := rfl
@[simp] theorem State.setWeak_pending (w : Bool) : (s.setWeak w).pending = s.pending := rfl
@[simp] theorem State.setWeak_reply (w : Bool) : (s.setWeak w).reply = s.reply := rfl

/-! ## setDout: `DOUT <- b` -/

@[simp] theorem State.setDout_life (b : Block) : (s.setDout b).life = s.life := rfl
@[simp] theorem State.setDout_cipher (b : Block) : (s.setDout b).cipher = s.cipher := rfl
@[simp] theorem State.setDout_kbuf (b : Block) : (s.setDout b).kbuf = s.kbuf := rfl
@[simp] theorem State.setDout_src (b : Block) : (s.setDout b).src = s.src := rfl
@[simp] theorem State.setDout_dst (b : Block) : (s.setDout b).dst = s.dst := rfl
@[simp] theorem State.setDout_len (b : Block) : (s.setDout b).len = s.len := rfl
@[simp] theorem State.setDout_result (b : Block) : (s.setDout b).result = s.result := rfl
@[simp] theorem State.setDout_dinHi (b : Block) : (s.setDout b).dinHi = s.dinHi := rfl
@[simp] theorem State.setDout_dinLo (b : Block) : (s.setDout b).dinLo = s.dinLo := rfl
@[simp] theorem State.setDout_doutHi (b : Block) : (s.setDout b).doutHi = hi b := rfl
@[simp] theorem State.setDout_doutLo (b : Block) : (s.setDout b).doutLo = lo b := rfl
@[simp] theorem State.setDout_cvHi (b : Block) : (s.setDout b).cvHi = s.cvHi := rfl
@[simp] theorem State.setDout_cvLo (b : Block) : (s.setDout b).cvLo = s.cvLo := rfl
@[simp] theorem State.setDout_faddr (b : Block) : (s.setDout b).faddr = s.faddr := rfl
@[simp] theorem State.setDout_weak (b : Block) : (s.setDout b).weak = s.weak := rfl
@[simp] theorem State.setDout_sticky (b : Block) : (s.setDout b).sticky = s.sticky := rfl
@[simp] theorem State.setDout_err (b : Block) : (s.setDout b).err = s.err := rfl
@[simp] theorem State.setDout_mem (b : Block) : (s.setDout b).mem = s.mem := rfl
@[simp] theorem State.setDout_config (b : Block) : (s.setDout b).config = s.config := rfl
@[simp] theorem State.setDout_pending (b : Block) : (s.setDout b).pending = s.pending := rfl
@[simp] theorem State.setDout_reply (b : Block) : (s.setDout b).reply = s.reply := rfl

/-! ## setCv: `CV <- b` -/

@[simp] theorem State.setCv_life (b : Block) : (s.setCv b).life = s.life := rfl
@[simp] theorem State.setCv_cipher (b : Block) : (s.setCv b).cipher = s.cipher := rfl
@[simp] theorem State.setCv_kbuf (b : Block) : (s.setCv b).kbuf = s.kbuf := rfl
@[simp] theorem State.setCv_src (b : Block) : (s.setCv b).src = s.src := rfl
@[simp] theorem State.setCv_dst (b : Block) : (s.setCv b).dst = s.dst := rfl
@[simp] theorem State.setCv_len (b : Block) : (s.setCv b).len = s.len := rfl
@[simp] theorem State.setCv_result (b : Block) : (s.setCv b).result = s.result := rfl
@[simp] theorem State.setCv_dinHi (b : Block) : (s.setCv b).dinHi = s.dinHi := rfl
@[simp] theorem State.setCv_dinLo (b : Block) : (s.setCv b).dinLo = s.dinLo := rfl
@[simp] theorem State.setCv_doutHi (b : Block) : (s.setCv b).doutHi = s.doutHi := rfl
@[simp] theorem State.setCv_doutLo (b : Block) : (s.setCv b).doutLo = s.doutLo := rfl
@[simp] theorem State.setCv_cvHi (b : Block) : (s.setCv b).cvHi = hi b := rfl
@[simp] theorem State.setCv_cvLo (b : Block) : (s.setCv b).cvLo = lo b := rfl
@[simp] theorem State.setCv_faddr (b : Block) : (s.setCv b).faddr = s.faddr := rfl
@[simp] theorem State.setCv_weak (b : Block) : (s.setCv b).weak = s.weak := rfl
@[simp] theorem State.setCv_sticky (b : Block) : (s.setCv b).sticky = s.sticky := rfl
@[simp] theorem State.setCv_err (b : Block) : (s.setCv b).err = s.err := rfl
@[simp] theorem State.setCv_mem (b : Block) : (s.setCv b).mem = s.mem := rfl
@[simp] theorem State.setCv_config (b : Block) : (s.setCv b).config = s.config := rfl
@[simp] theorem State.setCv_pending (b : Block) : (s.setCv b).pending = s.pending := rfl
@[simp] theorem State.setCv_reply (b : Block) : (s.setCv b).reply = s.reply := rfl

/-! ## setResult: `RESULT <- v` -/

@[simp] theorem State.setResult_life (v : Word) : (s.setResult v).life = s.life := rfl
@[simp] theorem State.setResult_cipher (v : Word) : (s.setResult v).cipher = s.cipher := rfl
@[simp] theorem State.setResult_kbuf (v : Word) : (s.setResult v).kbuf = s.kbuf := rfl
@[simp] theorem State.setResult_src (v : Word) : (s.setResult v).src = s.src := rfl
@[simp] theorem State.setResult_dst (v : Word) : (s.setResult v).dst = s.dst := rfl
@[simp] theorem State.setResult_len (v : Word) : (s.setResult v).len = s.len := rfl
@[simp] theorem State.setResult_result (v : Word) : (s.setResult v).result = v := rfl
@[simp] theorem State.setResult_dinHi (v : Word) : (s.setResult v).dinHi = s.dinHi := rfl
@[simp] theorem State.setResult_dinLo (v : Word) : (s.setResult v).dinLo = s.dinLo := rfl
@[simp] theorem State.setResult_doutHi (v : Word) : (s.setResult v).doutHi = s.doutHi := rfl
@[simp] theorem State.setResult_doutLo (v : Word) : (s.setResult v).doutLo = s.doutLo := rfl
@[simp] theorem State.setResult_cvHi (v : Word) : (s.setResult v).cvHi = s.cvHi := rfl
@[simp] theorem State.setResult_cvLo (v : Word) : (s.setResult v).cvLo = s.cvLo := rfl
@[simp] theorem State.setResult_faddr (v : Word) : (s.setResult v).faddr = s.faddr := rfl
@[simp] theorem State.setResult_weak (v : Word) : (s.setResult v).weak = s.weak := rfl
@[simp] theorem State.setResult_sticky (v : Word) : (s.setResult v).sticky = s.sticky := rfl
@[simp] theorem State.setResult_err (v : Word) : (s.setResult v).err = s.err := rfl
@[simp] theorem State.setResult_mem (v : Word) : (s.setResult v).mem = s.mem := rfl
@[simp] theorem State.setResult_config (v : Word) : (s.setResult v).config = s.config := rfl
@[simp] theorem State.setResult_pending (v : Word) : (s.setResult v).pending = s.pending := rfl
@[simp] theorem State.setResult_reply (v : Word) : (s.setResult v).reply = s.reply := rfl

/-! ## clearKbuf: `KBUF <- 0` -/

@[simp] theorem State.clearKbuf_life : (s.clearKbuf).life = s.life := rfl
@[simp] theorem State.clearKbuf_cipher : (s.clearKbuf).cipher = s.cipher := rfl
@[simp] theorem State.clearKbuf_kbuf : (s.clearKbuf).kbuf = Vector.replicate 56 0 := rfl
@[simp] theorem State.clearKbuf_src : (s.clearKbuf).src = s.src := rfl
@[simp] theorem State.clearKbuf_dst : (s.clearKbuf).dst = s.dst := rfl
@[simp] theorem State.clearKbuf_len : (s.clearKbuf).len = s.len := rfl
@[simp] theorem State.clearKbuf_result : (s.clearKbuf).result = s.result := rfl
@[simp] theorem State.clearKbuf_dinHi : (s.clearKbuf).dinHi = s.dinHi := rfl
@[simp] theorem State.clearKbuf_dinLo : (s.clearKbuf).dinLo = s.dinLo := rfl
@[simp] theorem State.clearKbuf_doutHi : (s.clearKbuf).doutHi = s.doutHi := rfl
@[simp] theorem State.clearKbuf_doutLo : (s.clearKbuf).doutLo = s.doutLo := rfl
@[simp] theorem State.clearKbuf_cvHi : (s.clearKbuf).cvHi = s.cvHi := rfl
@[simp] theorem State.clearKbuf_cvLo : (s.clearKbuf).cvLo = s.cvLo := rfl
@[simp] theorem State.clearKbuf_faddr : (s.clearKbuf).faddr = s.faddr := rfl
@[simp] theorem State.clearKbuf_weak : (s.clearKbuf).weak = s.weak := rfl
@[simp] theorem State.clearKbuf_sticky : (s.clearKbuf).sticky = s.sticky := rfl
@[simp] theorem State.clearKbuf_err : (s.clearKbuf).err = s.err := rfl
@[simp] theorem State.clearKbuf_mem : (s.clearKbuf).mem = s.mem := rfl
@[simp] theorem State.clearKbuf_config : (s.clearKbuf).config = s.config := rfl
@[simp] theorem State.clearKbuf_pending : (s.clearKbuf).pending = s.pending := rfl
@[simp] theorem State.clearKbuf_reply : (s.clearKbuf).reply = s.reply := rfl

/-! ## clearCipher: every P and S word to zero -/

@[simp] theorem State.clearCipher_life : (s.clearCipher).life = s.life := rfl
@[simp] theorem State.clearCipher_cipher : (s.clearCipher).cipher = CipherState.zero := rfl
@[simp] theorem State.clearCipher_kbuf : (s.clearCipher).kbuf = s.kbuf := rfl
@[simp] theorem State.clearCipher_src : (s.clearCipher).src = s.src := rfl
@[simp] theorem State.clearCipher_dst : (s.clearCipher).dst = s.dst := rfl
@[simp] theorem State.clearCipher_len : (s.clearCipher).len = s.len := rfl
@[simp] theorem State.clearCipher_result : (s.clearCipher).result = s.result := rfl
@[simp] theorem State.clearCipher_dinHi : (s.clearCipher).dinHi = s.dinHi := rfl
@[simp] theorem State.clearCipher_dinLo : (s.clearCipher).dinLo = s.dinLo := rfl
@[simp] theorem State.clearCipher_doutHi : (s.clearCipher).doutHi = s.doutHi := rfl
@[simp] theorem State.clearCipher_doutLo : (s.clearCipher).doutLo = s.doutLo := rfl
@[simp] theorem State.clearCipher_cvHi : (s.clearCipher).cvHi = s.cvHi := rfl
@[simp] theorem State.clearCipher_cvLo : (s.clearCipher).cvLo = s.cvLo := rfl
@[simp] theorem State.clearCipher_faddr : (s.clearCipher).faddr = s.faddr := rfl
@[simp] theorem State.clearCipher_weak : (s.clearCipher).weak = s.weak := rfl
@[simp] theorem State.clearCipher_sticky : (s.clearCipher).sticky = s.sticky := rfl
@[simp] theorem State.clearCipher_err : (s.clearCipher).err = s.err := rfl
@[simp] theorem State.clearCipher_mem : (s.clearCipher).mem = s.mem := rfl
@[simp] theorem State.clearCipher_config : (s.clearCipher).config = s.config := rfl
@[simp] theorem State.clearCipher_pending : (s.clearCipher).pending = s.pending := rfl
@[simp] theorem State.clearCipher_reply : (s.clearCipher).reply = s.reply := rfl

/-! ## zeroized: what ZEROIZE leaves -/

@[simp] theorem State.zeroized_life : (s.zeroized).life = .zeroized := rfl
@[simp] theorem State.zeroized_cipher : (s.zeroized).cipher = CipherState.zero := rfl
@[simp] theorem State.zeroized_kbuf : (s.zeroized).kbuf = Vector.replicate 56 0 := rfl
@[simp] theorem State.zeroized_src : (s.zeroized).src = s.src := rfl
@[simp] theorem State.zeroized_dst : (s.zeroized).dst = s.dst := rfl
@[simp] theorem State.zeroized_len : (s.zeroized).len = s.len := rfl
@[simp] theorem State.zeroized_result : (s.zeroized).result = 0 := rfl
@[simp] theorem State.zeroized_dinHi : (s.zeroized).dinHi = 0 := rfl
@[simp] theorem State.zeroized_dinLo : (s.zeroized).dinLo = 0 := rfl
@[simp] theorem State.zeroized_doutHi : (s.zeroized).doutHi = 0 := rfl
@[simp] theorem State.zeroized_doutLo : (s.zeroized).doutLo = 0 := rfl
@[simp] theorem State.zeroized_cvHi : (s.zeroized).cvHi = 0 := rfl
@[simp] theorem State.zeroized_cvLo : (s.zeroized).cvLo = 0 := rfl
@[simp] theorem State.zeroized_faddr : (s.zeroized).faddr = s.faddr := rfl
@[simp] theorem State.zeroized_weak : (s.zeroized).weak = false := rfl
@[simp] theorem State.zeroized_sticky : (s.zeroized).sticky = s.sticky := rfl
@[simp] theorem State.zeroized_err : (s.zeroized).err = s.err := rfl
@[simp] theorem State.zeroized_mem : (s.zeroized).mem = s.mem := rfl
@[simp] theorem State.zeroized_config : (s.zeroized).config = s.config := rfl
@[simp] theorem State.zeroized_pending : (s.zeroized).pending = s.pending := rfl
@[simp] theorem State.zeroized_reply : (s.zeroized).reply = s.reply := rfl

/-! ## resetCore: what reset leaves -/

@[simp] theorem State.resetCore_life : (s.resetCore).life = .unkeyed := rfl
@[simp] theorem State.resetCore_cipher : (s.resetCore).cipher = CipherState.zero := rfl
@[simp] theorem State.resetCore_kbuf : (s.resetCore).kbuf = Vector.replicate 56 0 := rfl
@[simp] theorem State.resetCore_src : (s.resetCore).src = 0 := rfl
@[simp] theorem State.resetCore_dst : (s.resetCore).dst = 0 := rfl
@[simp] theorem State.resetCore_len : (s.resetCore).len = 0 := rfl
@[simp] theorem State.resetCore_result : (s.resetCore).result = 0 := rfl
@[simp] theorem State.resetCore_dinHi : (s.resetCore).dinHi = 0 := rfl
@[simp] theorem State.resetCore_dinLo : (s.resetCore).dinLo = 0 := rfl
@[simp] theorem State.resetCore_doutHi : (s.resetCore).doutHi = 0 := rfl
@[simp] theorem State.resetCore_doutLo : (s.resetCore).doutLo = 0 := rfl
@[simp] theorem State.resetCore_cvHi : (s.resetCore).cvHi = 0 := rfl
@[simp] theorem State.resetCore_cvLo : (s.resetCore).cvLo = 0 := rfl
@[simp] theorem State.resetCore_faddr : (s.resetCore).faddr = 0 := rfl
@[simp] theorem State.resetCore_weak : (s.resetCore).weak = false := rfl
@[simp] theorem State.resetCore_sticky : (s.resetCore).sticky = false := rfl
@[simp] theorem State.resetCore_err : (s.resetCore).err = 0 := rfl
@[simp] theorem State.resetCore_mem : (s.resetCore).mem = s.mem := rfl
@[simp] theorem State.resetCore_config : (s.resetCore).config = s.config := rfl
@[simp] theorem State.resetCore_pending : (s.resetCore).pending = s.pending := rfl
@[simp] theorem State.resetCore_reply : (s.resetCore).reply = .none := rfl

end Sys2Proof.Machine
end

