-- ==== Sys2Proof/Laws/Memory.lean ====
section
/-! SUPPORT. Data memory: reading after writing, the canonical form, and that equal contents are equal lists. -/

namespace Sys2Proof.Machine

@[simp] theorem Memory.read_nil (a : Nat) : Memory.read [] a = Memory.unlisted := rfl

theorem Memory.read_cons (a' : Nat) (b : Byte) (m : Memory) (a : Nat) :
    Memory.read ((a', b) :: m) a = if a = a' then b else Memory.read m a := rfl

theorem Memory.wfFrom_cons (low a : Nat) (b : Byte) (m : Memory) :
    Memory.wfFrom low ((a, b) :: m) = true ↔
      low ≤ a ∧ a < 2 ^ 32 ∧ b ≠ Memory.unlisted ∧ Memory.wfFrom (a + 1) m = true := by
  simp [Memory.wfFrom, and_assoc]

theorem Memory.wfFrom_mono {low low' : Nat} {m : Memory} (h : Memory.wfFrom low' m = true) (hl : low ≤ low') :
    Memory.wfFrom low m = true := by
  cases m with
  | nil => rfl
  | cons c m =>
    obtain ⟨a, b⟩ := c
    rw [Memory.wfFrom_cons] at *
    exact ⟨by omega, h.2⟩

/-- Below the first listed address everything reads as an unlisted address does. -/
theorem Memory.read_of_lt {low : Nat} {m : Memory} (h : Memory.wfFrom low m = true) {a : Nat} (ha : a < low) :
    Memory.read m a = Memory.unlisted := by
  induction m generalizing low with
  | nil => rfl
  | cons c m ih =>
    obtain ⟨a', b⟩ := c
    rw [Memory.wfFrom_cons] at h
    rw [Memory.read_cons, if_neg (by omega)]
    exact ih h.2.2.2 (by omega)

/-- A write keeps the canonical form. -/
theorem Memory.wfFrom_write {low : Nat} {m : Memory} (h : Memory.wfFrom low m = true) {a : Nat} (hl : low ≤ a)
    (ha : a < 2 ^ 32) (b : Byte) : Memory.wfFrom low (Memory.write m a b) = true := by
  induction m generalizing low with
  | nil =>
    unfold Memory.write
    split
    · rfl
    · rw [Memory.wfFrom_cons]; exact ⟨hl, ha, ‹_›, rfl⟩
  | cons c m ih =>
    obtain ⟨a', b'⟩ := c
    unfold Memory.write
    rw [Memory.wfFrom_cons] at h
    split
    · split
      · rw [Memory.wfFrom_cons]; exact h
      · rw [Memory.wfFrom_cons, Memory.wfFrom_cons]
        exact ⟨hl, ha, ‹_›, by omega, h.2.1, h.2.2.1, h.2.2.2⟩
    · split
      · split
        · exact Memory.wfFrom_mono h.2.2.2 (by omega)
        · rw [Memory.wfFrom_cons]; exact ⟨h.1, h.2.1, ‹_›, h.2.2.2⟩
      · rw [Memory.wfFrom_cons]
        exact ⟨h.1, h.2.1, h.2.2.1, ih h.2.2.2 (by omega)⟩

theorem Memory.wf_write {m : Memory} (h : m.wf = true) {a : Nat} (ha : a < 2 ^ 32) (b : Byte) :
    (Memory.write m a b).wf = true := Memory.wfFrom_write h (Nat.zero_le a) ha b

/-- A read after a write to the same address gives the byte written; of a canonical memory. -/
theorem Memory.read_write_same {low : Nat} {m : Memory} (h : Memory.wfFrom low m = true) (a : Nat) (b : Byte) :
    Memory.read (Memory.write m a b) a = b := by
  induction m generalizing low with
  | nil =>
    unfold Memory.write
    split
    · simp [*]
    · simp [Memory.read_cons]
  | cons c m ih =>
    obtain ⟨a', b'⟩ := c
    rw [Memory.wfFrom_cons] at h
    unfold Memory.write
    split
    · split
      · rw [Memory.read_cons, if_neg (by omega), Memory.read_of_lt h.2.2.2 (by omega), ‹b = _›]
      · rw [Memory.read_cons, if_pos rfl]
    · split
      · split
        · rw [Memory.read_of_lt h.2.2.2 (by omega), ‹b = _›]
        · rw [Memory.read_cons, if_pos ‹_›]
      · rw [Memory.read_cons, if_neg ‹_›]
        exact ih h.2.2.2

/-- A write leaves every other address alone. -/
theorem Memory.read_write_of_ne (m : Memory) {a a' : Nat} (hne : a' ≠ a) (b : Byte) :
    Memory.read (Memory.write m a b) a' = Memory.read m a' := by
  induction m with
  | nil =>
    unfold Memory.write
    split
    · rfl
    · rw [Memory.read_cons, if_neg hne]
  | cons c m ih =>
    obtain ⟨x, y⟩ := c
    unfold Memory.write
    split
    · split
      · rfl
      · rw [Memory.read_cons, if_neg hne]
    · split
      · split
        · rw [Memory.read_cons, if_neg (by omega)]
        · rw [Memory.read_cons, Memory.read_cons, if_neg (by omega), if_neg (by omega)]
      · rw [Memory.read_cons, Memory.read_cons, ih]

/-- Two canonical memories that read alike are the same list. -/
theorem Memory.ext_of_read {low : Nat} {m m' : Memory} (h : Memory.wfFrom low m = true)
    (h' : Memory.wfFrom low m' = true) (hr : ∀ a, Memory.read m a = Memory.read m' a) : m = m' := by
  induction m generalizing low m' with
  | nil =>
    cases m' with
    | nil => rfl
    | cons c m' =>
      obtain ⟨a, b⟩ := c
      rw [Memory.wfFrom_cons] at h'
      have := hr a
      rw [Memory.read_cons, if_pos rfl] at this
      exact absurd this.symm h'.2.2.1
  | cons c m ih =>
    obtain ⟨a, b⟩ := c
    rw [Memory.wfFrom_cons] at h
    cases m' with
    | nil =>
      have := hr a
      rw [Memory.read_cons, if_pos rfl] at this
      exact absurd this h.2.2.1
    | cons c' m' =>
      obtain ⟨a', b'⟩ := c'
      rw [Memory.wfFrom_cons] at h'
      have hlt : ¬ a < a' := fun hlt => by
        have := hr a
        rw [Memory.read_cons, Memory.read_cons, if_pos rfl, if_neg (by omega),
          Memory.read_of_lt h'.2.2.2 (by omega)] at this
        exact h.2.2.1 this
      have hgt : ¬ a' < a := fun hgt => by
        have := hr a'
        rw [Memory.read_cons, Memory.read_cons, if_neg (by omega), if_pos rfl,
          Memory.read_of_lt h.2.2.2 (by omega)] at this
        exact h'.2.2.1 this.symm
      obtain rfl : a = a' := by omega
      have hb : b = b' := by
        have := hr a
        rwa [Memory.read_cons, Memory.read_cons, if_pos rfl, if_pos rfl] at this
      have hm : m = m' := by
        refine ih h.2.2.2 h'.2.2.2 fun x => ?_
        have := hr x
        rw [Memory.read_cons, Memory.read_cons] at this
        by_cases hx : x = a
        · rw [Memory.read_of_lt h.2.2.2 (by omega), Memory.read_of_lt h'.2.2.2 (by omega)]
        · rwa [if_neg hx, if_neg hx] at this
      rw [hb, hm]

theorem Memory.wf_setByteAt {m : Memory} (h : m.wf = true) (a : Word) (i : Nat) (b : Byte) :
    (m.setByteAt a i b).wf = true := Memory.wf_write h (BitVec.isLt _) b

/-- Writing bytes keeps the canonical form. -/
theorem Memory.wf_writeBytes {m : Memory} (h : m.wf = true) (a : Word) (i : Nat) (bs : List Byte) :
    (m.writeBytes a i bs).wf = true := by
  induction bs generalizing m i with
  | nil => exact h
  | cons b bs ih => exact ih (Memory.wf_setByteAt h a i b) (i + 1)

/-- Writing a block keeps the canonical form. -/
theorem Memory.wf_writeBlock {m : Memory} (h : m.wf = true) (a : Word) (v : Block) : (m.writeBlock a v).wf = true :=
  Memory.wf_writeBytes h a 0 _

/-- Writing bytes leaves every address alone that is none of theirs. -/
theorem Memory.read_writeBytes_of_ne (m : Memory) (a : Word) (i : Nat) (bs : List Byte) {x : Nat}
    (hx : ∀ j < bs.length, x ≠ (a + BitVec.ofNat 32 (i + j)).toNat) :
    Memory.read (m.writeBytes a i bs) x = Memory.read m x := by
  induction bs generalizing m i with
  | nil => rfl
  | cons b bs ih =>
    have h0 : x ≠ (a + BitVec.ofNat 32 i).toNat := by simpa using hx 0 (by simp)
    rw [Memory.writeBytes, ih _ _ fun j hj => ?_, Memory.setByteAt, Memory.read_write_of_ne _ h0]
    have := hx (j + 1) (by simpa using hj)
    rwa [show i + (j + 1) = i + 1 + j by omega] at this

/-- Writing a block leaves every address alone that is none of its eight. -/
theorem Memory.read_writeBlock_of_ne (m : Memory) (a : Word) (v : Block) {x : Nat}
    (hx : ∀ j < 8, x ≠ (a + BitVec.ofNat 32 j).toNat) : Memory.read (m.writeBlock a v) x = Memory.read m x :=
  Memory.read_writeBytes_of_ne m a 0 _ (by simpa using hx)

end Sys2Proof.Machine
end

