-- ==== Sys2Proof/Laws/Block.lean ====
section
/-! SUPPORT. Blocks, their halves and their bytes, and a block in memory. -/

namespace Sys2Proof.Machine

@[simp] theorem hi_blockOf (l r : Word) : hi (blockOf l r) = l := by
  apply BitVec.eq_of_getLsbD_eq
  intro i hlt
  simp only [hi, blockOf, BitVec.getLsbD_extractLsb', BitVec.getLsbD_append]
  simp [hlt]

@[simp] theorem lo_blockOf (l r : Word) : lo (blockOf l r) = r := by
  apply BitVec.eq_of_getLsbD_eq
  intro i hlt
  simp only [lo, blockOf, BitVec.getLsbD_extractLsb', BitVec.getLsbD_append]
  simp [hlt]

@[simp] theorem blockOf_hi_lo (b : Block) : blockOf (hi b) (lo b) = b := by
  apply BitVec.eq_of_getLsbD_eq
  intro i hlt
  simp only [hi, lo, blockOf, BitVec.getLsbD_extractLsb', BitVec.getLsbD_append]
  by_cases h : i < 32
  · simp [h]
  · have h1 : i - 32 < 32 := by omega
    have h2 : 32 + (i - 32) = i := by omega
    simp [h, h1, h2]

/-- The bytes of the block of eight bytes. -/
theorem byteOf_blockOfBytes (f : Nat → Byte) {i : Nat} (h : i < 8) : byteOf (blockOfBytes f) i = f i := by
  apply BitVec.eq_of_getLsbD_eq
  intro j hj
  simp only [byteOf, blockOfBytes, BitVec.getLsbD_extractLsb', BitVec.getLsbD_append]
  interval_cases i <;> interval_cases j <;> simp

/-- A block is the block of its eight bytes. -/
theorem blockOfBytes_byteOf (b : Block) : blockOfBytes (byteOf b) = b := by
  apply BitVec.eq_of_getLsbD_eq
  intro j hj
  simp only [byteOf, blockOfBytes, BitVec.getLsbD_extractLsb', BitVec.getLsbD_append]
  interval_cases j <;> simp

theorem blockOfBytes_congr {f g : Nat → Byte} (h : ∀ i < 8, f i = g i) : blockOfBytes f = blockOfBytes g := by
  simp [blockOfBytes, h]

/-- Blocks with the same bytes are the same. -/
theorem block_ext {b b' : Block} (h : ∀ i < 8, byteOf b i = byteOf b' i) : b = b' := by
  rw [← blockOfBytes_byteOf b, ← blockOfBytes_byteOf b', blockOfBytes_congr h]

@[simp] theorem State.din_mk (s : State) : blockOf s.dinHi s.dinLo = s.din := rfl
@[simp] theorem State.hi_din (s : State) : hi s.din = s.dinHi := hi_blockOf _ _
@[simp] theorem State.lo_din (s : State) : lo s.din = s.dinLo := lo_blockOf _ _
@[simp] theorem State.hi_cv (s : State) : hi s.cv = s.cvHi := hi_blockOf _ _
@[simp] theorem State.lo_cv (s : State) : lo s.cv = s.cvLo := lo_blockOf _ _
@[simp] theorem State.cv_setCv (s : State) (b : Block) : (s.setCv b).cv = b := blockOf_hi_lo b
@[simp] theorem State.dout_setDout (s : State) (b : Block) : (s.setDout b).dout = b := blockOf_hi_lo b
@[simp] theorem State.setCv_cv (s : State) : s.setCv s.cv = s := by simp [State.setCv]

@[simp] theorem hi_xor (a b : Block) : hi (a ^^^ b) = hi a ^^^ hi b := by
  apply BitVec.eq_of_getLsbD_eq
  intro i hlt
  simp [hi, hlt]

@[simp] theorem lo_xor (a b : Block) : lo (a ^^^ b) = lo a ^^^ lo b := by
  apply BitVec.eq_of_getLsbD_eq
  intro i hlt
  simp [lo, hlt]

/-- Two offsets below 2^32 from one address reach different addresses. -/
theorem offset_toNat_ne (a : Word) {i j : Nat} (hi : i < 2 ^ 32) (hj : j < 2 ^ 32) (h : i ≠ j) :
    (a + BitVec.ofNat 32 i).toNat ≠ (a + BitVec.ofNat 32 j).toNat := by
  simp only [BitVec.toNat_add, BitVec.toNat_ofNat]
  have := a.isLt
  omega

/-- What the bytes written by `writeBytes` read as, while the addresses do not wrap around onto each other. -/
theorem Memory.read_writeBytes {m : Memory} (h : m.wf = true) (a : Word) (i : Nat) (bs : List Byte)
    (hn : i + bs.length ≤ 2 ^ 32) {j : Nat} (hj : j < bs.length) :
    Memory.read (m.writeBytes a i bs) (a + BitVec.ofNat 32 (i + j)).toNat = bs[j] := by
  induction bs generalizing m i j with
  | nil => simp at hj
  | cons b bs ih =>
    simp only [List.length_cons] at hn hj
    cases j with
    | zero =>
      rw [Memory.writeBytes, Memory.read_writeBytes_of_ne]
      · exact Memory.read_write_same h _ _
      · intro j hj'
        exact offset_toNat_ne a (by omega) (by omega) (by omega)
    | succ j =>
      have := ih (Memory.wf_setByteAt h a i b) (i + 1) (by omega) (j := j) (by omega)
      rw [show i + (j + 1) = i + 1 + j by omega]
      simpa [Memory.writeBytes] using this

/-- The bytes of a block that was written. -/
theorem Memory.byteAt_writeBlock {m : Memory} (h : m.wf = true) (a : Word) (v : Block) {j : Nat} (hj : j < 8) :
    (m.writeBlock a v).byteAt a j = byteOf v j := by
  have := Memory.read_writeBytes h a 0 ((List.range 8).map (byteOf v)) (by simp) (j := j) (by simpa using hj)
  simpa [Memory.byteAt, Memory.writeBlock] using this

/-- A block reads back as it was written. -/
theorem Memory.readBlock_writeBlock {m : Memory} (h : m.wf = true) (a : Word) (v : Block) :
    (m.writeBlock a v).readBlock a = v := by
  rw [Memory.readBlock, blockOfBytes_congr fun i hi => Memory.byteAt_writeBlock h a v hi, blockOfBytes_byteOf]

end Sys2Proof.Machine
end

