-- ==== Sys2Proof/Laws/Ops.lean ====
section
/-! SUPPORT. What each shared operation can do, said once: the admission check, the memory accesses, how a command ends,
the life-cycle check, the buffer loop, and reading the key. -/

namespace Sys2Proof.Machine

/-! ## The admission check -/

theorem firstRefusedFrom_none {c : Config} {a : Word} {i n : Nat} :
    firstRefusedFrom c a i n = none ↔ ∀ j < n, c.admits (a + BitVec.ofNat 32 (i + j)) = true := by
  induction n generalizing i with
  | zero => simp [firstRefusedFrom]
  | succ n ih =>
    unfold firstRefusedFrom
    split
    · rw [ih]
      constructor
      · intro h j hj
        cases j with
        | zero => simpa
        | succ j => simpa [show i + (j + 1) = i + 1 + j by omega] using h j (by omega)
      · intro h j hj
        simpa [show i + 1 + j = i + (j + 1) by omega] using h (j + 1) (by omega)
    · constructor
      · intro h; cases h
      · intro h; exact absurd (by simpa using h 0 (by omega)) ‹_›

theorem firstRefusedFrom_some {c : Config} {a f : Word} {i n : Nat} :
    firstRefusedFrom c a i n = some f ↔
      ∃ j < n, f = a + BitVec.ofNat 32 (i + j) ∧ c.admits f = false ∧
        ∀ k < j, c.admits (a + BitVec.ofNat 32 (i + k)) = true := by
  induction n generalizing i with
  | zero => simp [firstRefusedFrom]
  | succ n ih =>
    unfold firstRefusedFrom
    split
    · rename_i hadm
      rw [ih]
      constructor
      · rintro ⟨j, hj, rfl, hf, hk⟩
        refine ⟨j + 1, by omega, by rw [show i + (j + 1) = i + 1 + j by omega], hf, fun k hk' => ?_⟩
        cases k with
        | zero => simpa using hadm
        | succ k => simpa [show i + (k + 1) = i + 1 + k by omega] using hk k (by omega)
      · rintro ⟨j, hj, rfl, hf, hk⟩
        cases j with
        | zero => simp only [Nat.add_zero, hadm] at hf; cases hf
        | succ j =>
          refine ⟨j, by omega, by rw [show i + 1 + j = i + (j + 1) by omega], hf, fun k hk' => ?_⟩
          simpa [show i + 1 + k = i + (k + 1) by omega] using hk (k + 1) (by omega)
    · rename_i hadm
      constructor
      · rintro h
        cases h
        exact ⟨0, by omega, by simp, by simpa using hadm, by simp⟩
      · rintro ⟨j, hj, rfl, hf, hk⟩
        cases j with
        | zero => simp
        | succ j => exact absurd (by simpa using hk 0 (by omega)) hadm

/-- The check passes exactly when every byte is admitted (20_memory.md R54). -/
theorem firstRefused_none {c : Config} {a : Word} {n : Nat} : firstRefused c a n = none ↔ Admitted c a n := by
  simp [firstRefused, firstRefusedFrom_none, Admitted]

/-- The check answers the first byte, in ascending order, that is not admitted (R54). -/
theorem firstRefused_some {c : Config} {a f : Word} {n : Nat} : firstRefused c a n = some f ↔ RefusedAt c a n f := by
  simp [firstRefused, firstRefusedFrom_some, RefusedAt, Admitted]

/-! ## Memory accesses -/

theorem memReadByte_ok {s : State} {a : Word} (h : Admitted s.config a 1) :
    memReadByte s a = .ok (s.mem.byteAt a 0) := by rw [memReadByte, firstRefused_none.2 h]

theorem memReadByte_error {s : State} {a f : Word} (h : RefusedAt s.config a 1 f) : memReadByte s a = .error f := by
  rw [memReadByte, firstRefused_some.2 h]

theorem memReadBlock_ok {s : State} {a : Word} (h : Admitted s.config a 8) :
    memReadBlock s a = .ok (s.mem.readBlock a) := by rw [memReadBlock, firstRefused_none.2 h]

theorem memReadBlock_error {s : State} {a f : Word} (h : RefusedAt s.config a 8 f) : memReadBlock s a = .error f := by
  rw [memReadBlock, firstRefused_some.2 h]

theorem memWriteBlock_ok {s : State} {a : Word} (h : Admitted s.config a 8) (v : Block) :
    memWriteBlock s a v = .ok { s with mem := s.mem.writeBlock a v } := by rw [memWriteBlock, firstRefused_none.2 h]

theorem memWriteBlock_error {s : State} {a f : Word} (h : RefusedAt s.config a 8 f) (v : Block) :
    memWriteBlock s a v = .error f := by rw [memWriteBlock, firstRefused_some.2 h]

/-- A block write that is answered changes memory alone. -/
theorem memWriteBlock_eq {s s' : State} {a : Word} {v : Block} (h : memWriteBlock s a v = .ok s') :
    s' = { s with mem := s.mem.writeBlock a v } := by
  unfold memWriteBlock at h
  split at h
  · cases h
  · cases h; rfl

/-- Every access is answered or refused. -/
theorem admitted_or_refused (c : Config) (a : Word) (n : Nat) : Admitted c a n ∨ ∃ f, RefusedAt c a n f := by
  cases h : firstRefused c a n with
  | none => exact .inl (firstRefused_none.1 h)
  | some f => exact .inr ⟨f, firstRefused_some.1 h⟩

/-! ## How a command ends -/

theorem finish_eq (s : State) : finish s = .next { s with err := 0 } := rfl

theorem raise_eq (e : ErrorCause) (s : State) : raise e s = .next { s with err := e.code, sticky := true } := rfl

theorem raiseBusError_eq (f : Word) (s : State) :
    raiseBusError f s = .next { s with faddr := f, err := ErrorCause.busError.code, sticky := true } := rfl

theorem ErrorCause.code_ne_zero (e : ErrorCause) : e.code ≠ 0 := by cases e <;> decide

theorem ErrorCause.code_le (e : ErrorCause) : e.code.toNat ≤ 7 := by cases e <;> decide

@[simp] theorem requireKeyed_keyed {s : State} (h : s.life = .keyed) (r : Result) : requireKeyed s r = r := by
  simp [requireKeyed, h]

@[simp] theorem requireKeyed_unkeyed {s : State} (h : s.life = .unkeyed) (r : Result) :
    requireKeyed s r = raise .notKeyed s := by simp [requireKeyed, h]

@[simp] theorem requireKeyed_zeroized {s : State} (h : s.life = .zeroized) (r : Result) :
    requireKeyed s r = raise .invalidated s := by simp [requireKeyed, h]

@[simp] theorem requireNotZeroized_zeroized {s : State} (h : s.life = .zeroized) (r : Result) :
    requireNotZeroized s r = raise .invalidated s := by simp [requireNotZeroized, h]

@[simp] theorem requireNotZeroized_other {s : State} (h : s.life ≠ .zeroized) (r : Result) :
    requireNotZeroized s r = r := by
  unfold requireNotZeroized
  split
  · contradiction
  · rfl
  · rfl

/-- What the life-cycle check can answer: the core is keyed and the command runs, or an error is raised and nothing else
changes. -/
theorem requireKeyed_cases (s : State) (r : Result) :
    (s.life = .keyed ∧ requireKeyed s r = r) ∨
      ∃ e, (e = .notKeyed ∨ e = .invalidated) ∧ requireKeyed s r = raise e s := by
  cases h : s.life <;> simp [h]

end Sys2Proof.Machine
end

