-- ==== Sys2Proof/Laws/Buffer.lean ====
section
/-! SUPPORT. What the buffer loop can do (spec 20_memory.md R65): it ends with all blocks done, or at the first block
that meets a bus error, and in both cases the state is the one after the blocks done. -/

namespace Sys2Proof.Machine

/-- The state after the first `k` blocks. -/
def State.atBlock (out : Block → Block → Block) (nx : Block → Block → Block → Block) (s : State) (k : Nat) : State :=
  ({ s with mem := (afterBlocks out nx s k).1 } : State).setCv (afterBlocks out nx s k).2

/-- The transform and the chaining rule of a loop are `out` and `nx` of the chaining value and the blocks. -/
structure LoopRule (transform : State → Block → Block) (chain : State → Block → Block → State) (c : CipherState)
    (out : Block → Block → Block) (nx : Block → Block → Block → Block) : Prop where
  transform_eq : ∀ s inp, s.cipher = c → transform s inp = out s.cv inp
  chain_eq     : ∀ s inp o, chain s inp o = s.setCv (nx s.cv inp o)

theorem loopRule_encBuf (c : CipherState) :
    LoopRule rawEncrypt noChain c (fun _ inp => c.encryptBlock inp) (fun cv _ _ => cv) :=
  ⟨fun s inp h => by simp [rawEncrypt, h], fun s _ _ => by simp [noChain]⟩

theorem loopRule_decBuf (c : CipherState) :
    LoopRule rawDecrypt noChain c (fun _ inp => c.decryptBlock inp) (fun cv _ _ => cv) :=
  ⟨fun s inp h => by simp [rawDecrypt, h], fun s _ _ => by simp [noChain]⟩

theorem loopRule_cbcEncBuf (c : CipherState) :
    LoopRule cbcEncrypt chainOutput c (fun cv inp => c.encryptBlock (inp ^^^ cv)) (fun _ _ o => o) :=
  ⟨fun s inp h => by simp [cbcEncrypt, h], fun _ _ _ => rfl⟩

theorem loopRule_cbcDecBuf (c : CipherState) :
    LoopRule cbcDecrypt chainInput c (fun cv inp => c.decryptBlock inp ^^^ cv) (fun _ inp _ => inp) :=
  ⟨fun s inp h => by simp [cbcDecrypt, h], fun _ _ _ => rfl⟩

section
variable {transform : State → Block → Block} {chain : State → Block → Block → State} {out : Block → Block → Block}
  {nx : Block → Block → Block → Block} {s : State}

@[simp] theorem State.atBlock_zero : s.atBlock out nx 0 = s := by simp [State.atBlock, afterBlocks]

theorem blockOffset_succ (k : Nat) : blockOffset k + 8 = blockOffset (k + 1) := by
  apply BitVec.eq_of_toNat_eq
  simp [blockOffset]
  omega

/-- One turn of the loop at an admitted block goes on from the state after that block. -/
theorem bufferLoop_step (hr : LoopRule transform chain s.cipher out nx) {k : Nat} (h : BlockAdmitted s k) (n : Nat) :
    bufferLoop transform chain (n + 1) (blockOffset k) (s.atBlock out nx k) =
      bufferLoop transform chain n (blockOffset (k + 1)) (s.atBlock out nx (k + 1)) := by
  rw [bufferLoop]
  have hread : Admitted (s.atBlock out nx k).config ((s.atBlock out nx k).src + blockOffset k) 8 := h.1
  have hwrite : Admitted (s.atBlock out nx k).config ((s.atBlock out nx k).dst + blockOffset k) 8 := h.2
  rw [memReadBlock_ok hread]
  dsimp only
  rw [memWriteBlock_ok hwrite]
  dsimp only
  rw [blockOffset_succ, hr.transform_eq (s.atBlock out nx k) _ rfl, hr.chain_eq]
  congr 1
  simp [State.atBlock, afterBlocks, State.setCv, State.cv]

/-- The loop stops at a block that is refused, with the count of the bytes done and the address. -/
theorem bufferLoop_stop {k : Nat} {f : Word} (h : BlockRefusedAt s k f) (n : Nat) :
    bufferLoop transform chain (n + 1) (blockOffset k) (s.atBlock out nx k) =
      raiseBusError f ((s.atBlock out nx k).setResult (blockOffset k)) := by
  rw [bufferLoop]
  obtain ⟨-, h | ⟨h, h'⟩⟩ := h
  · have hread : RefusedAt (s.atBlock out nx k).config ((s.atBlock out nx k).src + blockOffset k) 8 f := h
    rw [memReadBlock_error hread]
  · have hread : Admitted (s.atBlock out nx k).config ((s.atBlock out nx k).src + blockOffset k) 8 := h
    have hwrite : RefusedAt (s.atBlock out nx k).config ((s.atBlock out nx k).dst + blockOffset k) 8 f := h'
    rw [memReadBlock_ok hread]
    dsimp only
    rw [memWriteBlock_error hwrite]

/-- The loop reaches block `k` when every block before it is admitted. -/
theorem bufferLoop_reach (hr : LoopRule transform chain s.cipher out nx) {k : Nat} (h : ∀ j < k, BlockAdmitted s j)
    (n : Nat) : bufferLoop transform chain (k + n) 0 s =
      bufferLoop transform chain n (blockOffset k) (s.atBlock out nx k) := by
  induction k generalizing n with
  | zero => simp [blockOffset]
  | succ k ih =>
    rw [show k + 1 + n = k + (n + 1) by omega, ih (fun j hj => h j (by omega)), bufferLoop_step hr (h k (by omega))]

/-- With every block admitted, the loop ends well after all of them. -/
theorem bufferLoop_done (hr : LoopRule transform chain s.cipher out nx) {n : Nat} (h : ∀ j < n, BlockAdmitted s j) :
    bufferLoop transform chain n 0 s = finish ((s.atBlock out nx n).setResult (blockOffset n)) := by
  rw [← Nat.add_zero n, bufferLoop_reach hr h, bufferLoop, Nat.add_zero]

/-- The loop raises BUS_ERROR at the first block that is refused, the blocks before it done. -/
theorem bufferLoop_refused (hr : LoopRule transform chain s.cipher out nx) {n k : Nat} {f : Word} (hk : k < n)
    (h : BlockRefusedAt s k f) :
    bufferLoop transform chain n 0 s = raiseBusError f ((s.atBlock out nx k).setResult (blockOffset k)) := by
  obtain ⟨m, rfl⟩ : ∃ m, n = k + (m + 1) := ⟨n - k - 1, by omega⟩
  rw [bufferLoop_reach hr h.1, bufferLoop_stop h]

theorem blockAdmitted_or (s : State) (k : Nat) (h : ∀ j < k, BlockAdmitted s j) :
    BlockAdmitted s k ∨ ∃ f, BlockRefusedAt s k f := by
  obtain hs | ⟨f, hs⟩ := admitted_or_refused s.config (s.src + blockOffset k) 8
  · obtain hd | ⟨f, hd⟩ := admitted_or_refused s.config (s.dst + blockOffset k) 8
    · exact .inl ⟨hs, hd⟩
    · exact .inr ⟨f, h, .inr ⟨hs, hd⟩⟩
  · exact .inr ⟨f, h, .inl hs⟩

/-- Either every block is admitted, or there is a first one that is refused. -/
theorem blocks_admitted_or (s : State) (n : Nat) :
    (∀ j < n, BlockAdmitted s j) ∨ ∃ k < n, ∃ f, BlockRefusedAt s k f := by
  induction n with
  | zero => exact .inl (by simp)
  | succ n ih =>
    obtain h | ⟨k, hk, f, h⟩ := ih
    · obtain h' | ⟨f, h'⟩ := blockAdmitted_or s n h
      · refine .inl fun j hj => ?_
        obtain rfl | hj' : j = n ∨ j < n := by omega
        · exact h'
        · exact h j hj'
      · exact .inr ⟨n, by omega, f, h'⟩
    · exact .inr ⟨k, by omega, f, h⟩

/-- All the loop can do: after some number of blocks it ends, well or with a bus error. -/
theorem bufferLoop_cases (hr : LoopRule transform chain s.cipher out nx) (n : Nat) :
    bufferLoop transform chain n 0 s = finish ((s.atBlock out nx n).setResult (blockOffset n)) ∨
      ∃ k < n, ∃ f, bufferLoop transform chain n 0 s =
        raiseBusError f ((s.atBlock out nx k).setResult (blockOffset k)) := by
  obtain h | ⟨k, hk, f, h⟩ := blocks_admitted_or s n
  · exact .inl (bufferLoop_done hr h)
  · exact .inr ⟨k, hk, f, bufferLoop_refused hr hk h⟩

/-- The blocks done keep the canonical form of memory. -/
theorem wf_afterBlocks (hm : s.mem.wf = true) (k : Nat) : (afterBlocks out nx s k).1.wf = true := by
  induction k with
  | zero => exact hm
  | succ k ih => exact Memory.wf_writeBlock ih _ _

theorem block_address (a : Word) (k j : Nat) : a + blockOffset k + BitVec.ofNat 32 j = a + BitVec.ofNat 32 (8 * k + j) := by
  apply BitVec.eq_of_toNat_eq
  simp [blockOffset]
  omega

/-- The blocks done change no byte but those of their destinations. -/
theorem read_afterBlocks_of_ne (k : Nat) {x : Nat} (hx : ∀ j < 8 * k, x ≠ (s.dst + BitVec.ofNat 32 j).toNat) :
    Memory.read (afterBlocks out nx s k).1 x = Memory.read s.mem x := by
  induction k with
  | zero => rfl
  | succ k ih =>
    rw [← ih fun j hj => hx j (by omega)]
    refine Memory.read_writeBlock_of_ne _ _ _ fun j hj => ?_
    rw [block_address]
    exact hx _ (by omega)

end

end Sys2Proof.Machine
end

