-- ==== Sys2Proof/Laws/PerInstr.lean ====
section
/-! SUPPORT. The family OpcodeMap: of every command, that its operation code is in the map and is read back as the
command (spec 30_encoding.md R73). -/

namespace Sys2Proof.Laws.OpcodeMap

/-- The operation code of a command is at most 0x10 and names the command. -/
def Statement (i : Instr) : Prop := i.opcode ≤ lastOpcode ∧ Instr.ofOpcode i.opcode = some i

theorem nop : Statement .nop := ⟨by decide, rfl⟩
theorem keysched : Statement .keysched := ⟨by decide, rfl⟩
theorem encBlk : Statement .encBlk := ⟨by decide, rfl⟩
theorem decBlk : Statement .decBlk := ⟨by decide, rfl⟩
theorem encBuf : Statement .encBuf := ⟨by decide, rfl⟩
theorem decBuf : Statement .decBuf := ⟨by decide, rfl⟩
theorem weakchk : Statement .weakchk := ⟨by decide, rfl⟩
theorem zeroize : Statement .zeroize := ⟨by decide, rfl⟩
theorem cvLoad : Statement .cvLoad := ⟨by decide, rfl⟩
theorem cvStore : Statement .cvStore := ⟨by decide, rfl⟩
theorem cbcEncBlk : Statement .cbcEncBlk := ⟨by decide, rfl⟩
theorem cbcDecBlk : Statement .cbcDecBlk := ⟨by decide, rfl⟩
theorem cbcEncBuf : Statement .cbcEncBuf := ⟨by decide, rfl⟩
theorem cbcDecBuf : Statement .cbcDecBuf := ⟨by decide, rfl⟩
theorem padBlk : Statement .padBlk := ⟨by decide, rfl⟩
theorem unpadStrict : Statement .unpadStrict := ⟨by decide, rfl⟩
theorem unpadLenient : Statement .unpadLenient := ⟨by decide, rfl⟩

end Sys2Proof.Laws.OpcodeMap
end

