-- ==== Sys2Proof/Laws/Encoding.lean ====
section
/-! SUPPORT. The two fields of a command word (spec 30_encoding.md R70), and what the decoder answers. -/

namespace Sys2Proof

@[simp] theorem CommandWord.ofWord_toWord (c : CommandWord) : CommandWord.ofWord c.toWord = c := by
  obtain ⟨r, o⟩ := c
  simp only [CommandWord.ofWord, CommandWord.toWord, CommandWord.mk.injEq]
  constructor <;> apply BitVec.eq_of_getLsbD_eq <;> intro i hlt <;>
    simp only [BitVec.getLsbD_extractLsb', BitVec.getLsbD_append] <;> simp [hlt]

@[simp] theorem CommandWord.toWord_ofWord (v : Word) : (CommandWord.ofWord v).toWord = v := by
  apply BitVec.eq_of_getLsbD_eq
  intro i hlt
  simp only [CommandWord.ofWord, CommandWord.toWord, BitVec.getLsbD_extractLsb', BitVec.getLsbD_append]
  by_cases h : i < 8
  · simp [h]
  · have h1 : i - 8 < 24 := by omega
    have h2 : 8 + (i - 8) = i := by omega
    simp [h, h1, h2]

/-- The decoder answers a command exactly where `RSVD` is zero and the map gives the command for `OPC`. -/
theorem decode_ok_iff (v : Word) (i : Instr) :
    decode v = .ok i ↔ (CommandWord.ofWord v).rsvd = 0#24 ∧ Instr.ofOpcode (CommandWord.ofWord v).opc = some i := by
  unfold decode
  by_cases h : (CommandWord.ofWord v).rsvd = 0#24
  · rw [if_neg (by simpa using h)]
    cases hm : Instr.ofOpcode (CommandWord.ofWord v).opc <;> simp [h]
  · rw [if_pos h]
    simp [h]

/-- The command word of a command is well formed. -/
theorem encode_wf (i : Instr) : (CommandWord.ofWord (encode i)).wf = true := by
  rw [encode, CommandWord.ofWord_toWord]
  cases i <;> decide

end Sys2Proof
end

