-- ==== Sys2Proof/Laws/KeySchedule.lean ====
section
/-! SUPPORT. Reading the key into KBUF (spec 40_key_schedule.md R103), the running key index (R104), and that the key
schedule depends on the key bytes alone (R107). -/

namespace Sys2Proof.Machine

theorem add_ofNat_add (a : Word) (i j : Nat) :
    a + BitVec.ofNat 32 i + BitVec.ofNat 32 j = a + BitVec.ofNat 32 (i + j) := by
  apply BitVec.eq_of_toNat_eq
  simp
  omega

theorem admitted_one {c : Config} {a : Word} (h : c.admits a = true) : Admitted c a 1 := by
  intro i hi
  obtain rfl : i = 0 := by omega
  simpa using h

theorem refusedAt_one {c : Config} {a : Word} (h : c.admits a = false) : RefusedAt c a 1 a :=
  ⟨0, by omega, by simp, h, by simp [Admitted]⟩

/-- The key buffer after the `n` bytes from index `i` upward were read. -/
def keyBytes (s : State) : Nat → Nat → Vector Byte 56 → Vector Byte 56
  | _, 0, kbuf => kbuf
  | i, n + 1, kbuf => keyBytes s (i + 1) n (kbuf.setIfInBounds i (s.mem.byteAt s.src i))

/-- With every key byte admitted, the key is read. -/
theorem loadKey_ok {s : State} {i n : Nat} (kbuf : Vector Byte 56)
    (h : ∀ j < n, s.config.admits (s.src + BitVec.ofNat 32 (i + j)) = true) :
    loadKey s i n kbuf = .ok (keyBytes s i n kbuf) := by
  induction n generalizing i kbuf with
  | zero => rfl
  | succ n ih =>
    rw [loadKey, memReadByte_ok (admitted_one (by simpa using h 0 (by omega)))]
    dsimp only
    rw [ih _ fun j hj => by simpa [show i + 1 + j = i + (j + 1) by omega] using h (j + 1) (by omega)]
    simp [keyBytes, Memory.byteAt]

/-- Otherwise the answer is the first key byte that is not admitted. -/
theorem loadKey_error {s : State} {i n j : Nat} (kbuf : Vector Byte 56) (hj : j < n)
    (h : ∀ k < j, s.config.admits (s.src + BitVec.ofNat 32 (i + k)) = true)
    (hf : s.config.admits (s.src + BitVec.ofNat 32 (i + j)) = false) :
    loadKey s i n kbuf = .error (s.src + BitVec.ofNat 32 (i + j)) := by
  induction n generalizing i j kbuf with
  | zero => omega
  | succ n ih =>
    rw [loadKey]
    cases j with
    | zero =>
      rw [memReadByte_error (refusedAt_one (by simpa using hf))]
      simp
    | succ j =>
      rw [memReadByte_ok (admitted_one (by simpa using h 0 (by omega)))]
      dsimp only
      have heq : i + (j + 1) = i + 1 + j := by omega
      rw [heq] at hf ⊢
      exact ih _ (by omega) (fun k hk => by simpa [show i + 1 + k = i + (k + 1) by omega] using h (k + 1) (by omega)) hf

/-- The bytes of the key buffer after the key was read. -/
theorem getElem_keyBytes (s : State) (i n : Nat) (kbuf : Vector Byte 56) (j : Nat) (hj : j < 56) :
    (keyBytes s i n kbuf)[j] = if i ≤ j ∧ j < i + n then s.mem.byteAt s.src j else kbuf[j] := by
  induction n generalizing i kbuf with
  | zero =>
    rw [if_neg (by omega)]
    rfl
  | succ n ih =>
    rw [keyBytes, ih]
    by_cases h : j = i
    · subst h
      rw [if_neg (by omega), if_pos (by omega)]
      simp
    · rw [Vector.getElem_setIfInBounds_ne hj (by omega)]
      by_cases h' : i + 1 ≤ j ∧ j < i + 1 + n
      · rw [if_pos h', if_pos (by omega)]
      · rw [if_neg h', if_neg (by omega)]

theorem lt_of_runningIndex {kl : Nat} (h : 0 < kl) (t : Nat) : runningIndex kl t < kl := by
  cases t with
  | zero => exact h
  | succ t => exact Nat.mod_lt _ h

/-- The running index of R104 is the count of bytes taken, modulo the key length. -/
theorem runningIndex_eq (kl t : Nat) : runningIndex kl t = t % kl := by
  induction t with
  | zero => simp [runningIndex]
  | succ t ih => rw [runningIndex, ih, Nat.mod_add_mod]

/-- Mixing depends on the first 72 bytes of the key's cyclic extension alone. -/
theorem mixKey_congr {kbuf kbuf' : Vector Byte 56} {kl kl' : Nat}
    (h : ∀ t < 72, keyByte kbuf kl t = keyByte kbuf' kl' t) (c : CipherState) : mixKey kbuf kl c = mixKey kbuf' kl' c := by
  have hw : ∀ i < 18, keyWord kbuf kl i = keyWord kbuf' kl' i := fun i hi => by
    simp only [keyWord, wordOfBytes]
    rw [h _ (by omega), h _ (by omega), h _ (by omega), h _ (by omega)]
  have hp : c.p.mapIdx (fun i w => w ^^^ keyWord kbuf kl i) = c.p.mapIdx (fun i w => w ^^^ keyWord kbuf' kl' i) := by
    ext i hi
    simp [hw i hi]
  rw [mixKey, mixKey, hp]

/-- So does the key schedule. -/
theorem keySchedule_congr {kbuf kbuf' : Vector Byte 56} {kl kl' : Nat}
    (h : ∀ t < 72, keyByte kbuf kl t = keyByte kbuf' kl' t) : keySchedule kbuf kl = keySchedule kbuf' kl' := by
  rw [keySchedule, keySchedule, mixKey_congr h]

/-- Two keys of one length whose bytes agree give the same boxes. -/
theorem keySchedule_of_key_eq {kbuf kbuf' : Vector Byte 56} {kl : Nat} (h0 : 0 < kl) (h56 : kl ≤ 56)
    (h : ∀ j (hj : j < kl), kbuf[j] = kbuf'[j]) : keySchedule kbuf kl = keySchedule kbuf' kl :=
  keySchedule_congr fun t _ => by
    have hlt := Nat.mod_lt t h0
    have h56' : t % kl < 56 := by omega
    simp only [keyByte, Vector.getElem?_eq_getElem h56', Option.getD_some]
    exact h _ hlt

end Sys2Proof.Machine
end

