-- ==== Sys2Proof/Laws/Run.lean ====
section
/-! SUPPORT. What an observation depends on, and how a run goes on from its first step. -/

namespace Sys2Proof.Machine

@[simp] theorem State.observe_mem (s : State) : s.observe.mem = s.mem := rfl

@[simp] theorem State.observe_regs (s : State) : s.observe.regs = windowRegs.map (readReg s) := rfl

/-- `P`, `S` and `KBUF` are no part of the observation (70_reset_and_hazards.md R263). -/
@[simp] theorem State.observe_setKeyMaterial (s : State) (c : CipherState) (k : Vector Byte 56) :
    State.observe { s with cipher := c, kbuf := k } = s.observe := rfl

/-- Nor are the events to come and the latest reply, which are the model's own. -/
@[simp] theorem State.observe_setHostSide (s : State) (es : List Event) (r : Reply) :
    State.observe { s with pending := es, reply := r } = s.observe := rfl

/-- States that differ in key material alone are observed alike. -/
theorem observe_eq_of_eq_but_keyMaterial {s t : State} (h : { t with cipher := s.cipher, kbuf := s.kbuf } = s) :
    t.observe = s.observe := by rw [← h]; rfl

/-- A run goes on, after a step that answers a next state, as a run from that state. -/
theorem run_succ_of_next {s t : State} (h : step s = .next t) (n : Nat) :
    Sys2Proof.core.run (n + 1) s = Sys2Proof.core.run n t := by
  have h' : Sys2Proof.core.step s = .next t := h
  simp only [Host.Core.run, h']

end Sys2Proof.Machine
end

