-- ==== Sys2Proof/Tests/Slice0.lean ====
section
/-! SUPPORT. The model's own tests: ill-formed terms, the decoding of every command's word, the spec's test vectors on single
steps (95_test_vectors.md; expected values are the spec's), and a witness for the hypotheses of every statement. -/

namespace Sys2Proof.Tests

open Sys2Proof.Machine

/-! ## Well-formedness: one ill-formed term per check -/

theorem test_illformed_rsvd : CommandWord.wf { rsvd := 1, opc := 0x02 } = false := by decide
theorem test_illformed_opc : CommandWord.wf { rsvd := 0, opc := 0x11 } = false := by decide
theorem test_illformed_width : accessWf 0x04 16 = false := by decide
theorem test_illformed_offset : accessWf 0x02 32 = false := by decide
theorem test_illformed_memory_order : Memory.wf [(5, 1), (5, 2)] = false := by decide
theorem test_illformed_memory_zero : Memory.wf [(5, 0)] = false := by decide
theorem test_illformed_memory_top : Memory.wf [(2 ^ 32, 1)] = false := by decide
theorem test_wellformed : CommandWord.wf { rsvd := 0, opc := 0x10 } = true ∧ accessWf 0x3C 32 = true ∧
    Memory.wf [(5, 1), (0xFFFFFFFF, 2)] = true ∧ Instr.nop.wf = true := by decide

/-! ## Decoding: the words of R73, and the illegal words of V43 -/

theorem test_decode_nop : decode 0b00000000000000000000000000000000#32 = .ok .nop := by decide
theorem test_decode_keysched : decode 0b00000000000000000000000000000001#32 = .ok .keysched := by decide
theorem test_decode_encBlk : decode 0b00000000000000000000000000000010#32 = .ok .encBlk := by decide
theorem test_decode_decBlk : decode 0b00000000000000000000000000000011#32 = .ok .decBlk := by decide
theorem test_decode_encBuf : decode 0b00000000000000000000000000000100#32 = .ok .encBuf := by decide
theorem test_decode_decBuf : decode 0b00000000000000000000000000000101#32 = .ok .decBuf := by decide
theorem test_decode_weakchk : decode 0b00000000000000000000000000000110#32 = .ok .weakchk := by decide
theorem test_decode_zeroize : decode 0b00000000000000000000000000000111#32 = .ok .zeroize := by decide
theorem test_decode_cvLoad : decode 0b00000000000000000000000000001000#32 = .ok .cvLoad := by decide
theorem test_decode_cvStore : decode 0b00000000000000000000000000001001#32 = .ok .cvStore := by decide
theorem test_decode_cbcEncBlk : decode 0b00000000000000000000000000001010#32 = .ok .cbcEncBlk := by decide
theorem test_decode_cbcDecBlk : decode 0b00000000000000000000000000001011#32 = .ok .cbcDecBlk := by decide
theorem test_decode_cbcEncBuf : decode 0b00000000000000000000000000001100#32 = .ok .cbcEncBuf := by decide
theorem test_decode_cbcDecBuf : decode 0b00000000000000000000000000001101#32 = .ok .cbcDecBuf := by decide
theorem test_decode_padBlk : decode 0b00000000000000000000000000001110#32 = .ok .padBlk := by decide
theorem test_decode_unpadStrict : decode 0b00000000000000000000000000001111#32 = .ok .unpadStrict := by decide
theorem test_decode_unpadLenient : decode 0b00000000000000000000000000010000#32 = .ok .unpadLenient := by decide
theorem test_decode_illegal : decode 0x00000011 = .error .opcodeUnassigned ∧ decode 0x000000FF = .error .opcodeUnassigned ∧
    decode 0x00000102 = .error .reservedNotZero ∧ decode 0x80000000 = .error .reservedNotZero := by decide
theorem test_decodeTableWord : decodeTableWord 32 0x0D = some .cbcDecBuf ∧ decodeTableWord 8 0x0D = some .cbcDecBuf ∧
    decodeTableWord 32 0x102 = none := by decide

/-! ## Helpers -/

/-- The next state's property, false where there is none. -/
def nextHas (r : Result) (f : State → Bool) : Bool :=
  match r with
  | .next s => f s
  | .fault _ | .refused _ => false

/-- A state in a life-cycle state, otherwise as after reset. -/
def inLife (l : LifeCycle) : State := { State.reset with life := l }

/-- A keyed core whose boxes are the initialization constants alone (V20, last line). -/
def onInit : State := { State.reset with life := .keyed, cipher := CipherState.init }

/-- A keyed core with `blocks` blocks to handle in place at address 0. -/
def keyedBuf (blocks : Nat) : State := { inLife .keyed with len := BitVec.ofNat 32 (8 * blocks) }

/-- The admitted range ends below `last + 1` (V32 and P5 use 0xFFFF). -/
def admitUpTo (last : Word) (s : State) : State := { s with config := { base := 0, admitted := [{ first := 0, last := last }] } }

/-- DIN set to a block. -/
def withDin (b : Block) (len : Word) : State := { State.reset with dinHi := hi b, dinLo := lo b, len := len }

/-! ## The spec's vectors -/

-- V20, last line: F and Encrypt on the initial constants
theorem test_f_zero : CipherState.init.f 0 = 0x2fcff51e := by decide +kernel
theorem test_f_ones : CipherState.init.f 0xffffffff = 0x452c2867 := by decide +kernel
theorem test_encBlk_init : nextHas (exec .encBlk onInit) (fun t =>
    t.doutHi == 0x706d9fcc && t.doutLo == 0x1792d23a && t.err == 0) = true := by decide +kernel
-- the same vector backwards (R124)
theorem test_decBlk_init : nextHas (exec .decBlk { onInit with dinHi := 0x706d9fcc, dinLo := 0x1792d23a }) (fun t =>
    t.doutHi == 0 && t.doutLo == 0) = true := by decide +kernel
-- V22: ENC_BLK after reset
theorem test_encBlk_notKeyed : nextHas (exec .encBlk State.reset) (fun t => t.status == 0x00000308) = true := by
  decide +kernel
-- the vector of V20 through a buffer: a zero block at 0 encrypted to 8; and R127: LEN mod 8 is ignored
theorem test_encBuf_init : nextHas (exec .encBuf { onInit with dst := 8, len := 15 }) (fun t =>
    t.mem.readBlock 8 == 0x706d9fcc1792d23a#64 && t.result == 8 && t.mem.readBlock 0 == 0#64) = true := by decide +kernel
theorem test_decBuf_short : nextHas (exec .decBuf { onInit with len := 7, config := { base := 0, admitted := [] } }) (fun t =>
    t.mem == [] && t.result == 0 && t.err == 0) = true := by decide +kernel
-- V32, its second block: the read fails at 0x10000; no block before it here
theorem test_encBuf_busError : nextHas (exec .encBuf (admitUpTo 0xFFFF { onInit with src := 0x10000, len := 8 })) (fun t =>
    t.faddr == 0x00010000 && t.result == 0 && t.status == 0x00000709 && t.mem == []) = true := by decide +kernel
-- R173 with CV = 0: CBC of the zero block is ENC_BLK of it; R174: the new CV is the ciphertext
theorem test_cbcEncBlk_init : nextHas (exec .cbcEncBlk onInit) (fun t =>
    t.dout == 0x706d9fcc1792d23a#64 && t.cv == 0x706d9fcc1792d23a#64) = true := by decide +kernel
theorem test_cbcDecBlk_init : nextHas (exec .cbcDecBlk { onInit with dinHi := 0x706d9fcc, dinLo := 0x1792d23a, cvLo := 5 })
    (fun t => t.dout == 5#64 && t.cv == 0x706d9fcc1792d23a#64) = true := by decide +kernel
theorem test_cbcEncBuf_init : nextHas (exec .cbcEncBuf { onInit with dst := 8, len := 8, cvLo := 0 }) (fun t =>
    t.mem.readBlock 8 == 0x706d9fcc1792d23a#64 && t.cv == 0x706d9fcc1792d23a#64 && t.result == 8) = true := by
  decide +kernel
theorem test_cbcDecBuf_init : nextHas (exec .cbcDecBuf { onInit with
      mem := Memory.writeBlock [] 0 0x706d9fcc1792d23a, len := 8, cvLo := 5 }) (fun t =>
    t.mem == [(7, 5)] && t.cv == 0x706d9fcc1792d23a#64) = true := by decide +kernel
-- V11: key lengths 0 and 57
theorem test_keysched_length : nextHas (exec .keysched State.reset) (fun t => t.status == 0x00000108) = true ∧
    nextHas (exec .keysched { inLife .keyed with len := 57 }) (fun t => t.status == 0x00000108) = true := by decide +kernel
-- V42: KEYSCHED after ZEROIZE
theorem test_keysched_zeroized : nextHas (exec .keysched { inLife .zeroized with len := 8 }) (fun t =>
    t.status == 0x0000040A) = true := by decide +kernel
-- R104 on KAT1, by hand: P_INIT[0] XOR 1c587f1c, P_INIT[1] XOR 13924fef, and a 3-byte key wrapping inside a word
theorem test_mixKey : (mixKey (Vector.ofFn fun i => ([0x1c, 0x58, 0x7f, 0x1c, 0x13, 0x92, 0x4f, 0xef] : List Byte).getD i 0) 8
      CipherState.init).p[1] = 0x85a308d3 ^^^ 0x13924fef := by decide +kernel
theorem test_keyWord_wrap : keyWord (Vector.ofFn fun i => ([1, 2, 3] : List Byte).getD i 0) 3 1 = 0x02030102 := by
  decide +kernel
-- R150: two equal words in one box; equal words in two boxes do not count
theorem test_weakchk_zero : nextHas (exec .weakchk (inLife .keyed)) (fun t => t.result == 1 && t.status == 0x00000005) = true := by
  decide +kernel
theorem test_no_duplicate : hasDuplicate [1, 2, 3] = false ∧ hasDuplicate [1, 2, 1] = true ∧ hasDuplicate [] = false := by
  decide
-- V42: ZEROIZE
theorem test_zeroize : nextHas (exec .zeroize { onInit with doutHi := 5, cvLo := 6, src := 7 }) (fun t =>
    t.status == 0x00000002 && t.cipher == CipherState.zero && t.dout == 0#64 && t.cv == 0#64 && t.src == 7) = true := by
  decide +kernel
-- V43: illegal word, then NOP
theorem test_illegal_word : nextHas (runWord 0x00000102 (inLife .keyed)) (fun t => t.status == 0x00000509) = true := by
  decide +kernel
theorem test_nop : nextHas (exec .nop { inLife .keyed with err := 5, sticky := true }) (fun t =>
    t.status == 0x00000009) = true := by decide +kernel
-- V33: CV_LOAD across the top of memory; V50: CV_STORE
theorem test_cvLoad_wraps : nextHas (exec .cvLoad { State.reset with
      src := 0xFFFFFFFC, mem := Memory.writeBytes [] 0xFFFFFFFC 0 [0xaa, 0xbb, 0xcc, 0xdd, 0x11, 0x22, 0x33, 0x44] }) (fun t =>
    t.cvHi == 0xaabbccdd && t.cvLo == 0x11223344) = true := by decide +kernel
theorem test_cvStore : nextHas (exec .cvStore { inLife .zeroized with cvHi := 0x00112233, cvLo := 0x44556677, dst := 9 })
    (fun t => t.mem.readBytes 9 8 == [0x00, 0x11, 0x22, 0x33, 0x44, 0x55, 0x66, 0x77]) = true := by decide +kernel
-- P5: CV_STORE across 0x10000
theorem test_cvStore_busError : nextHas (exec .cvStore (admitUpTo 0xFFFF { State.reset with dst := 0xFFFC })) (fun t =>
    t.faddr == 0x00010000 && t.err == 7 && t.mem == []) = true := by decide +kernel
-- V60
theorem test_padBlk : nextHas (exec .padBlk (withDin 0x68656c6c6f000000 5)) (fun t =>
    t.dout == 0x68656c6c6f030303#64 && t.result == 3) = true := by decide +kernel
theorem test_padBlk_edges : nextHas (exec .padBlk (withDin 0x1122334455667788 0)) (fun t => t.dout == 0x0808080808080808#64) = true ∧
    nextHas (exec .padBlk (withDin 0x1122334455667788 8)) (fun t => t.err == 6 && t.dout == 0#64) = true := by
  decide +kernel
-- V61
theorem test_unpadStrict : nextHas (exec .unpadStrict (withDin 0x1122334455667700 0)) (fun t => t.result == 8 && t.err == 0) = true ∧
    nextHas (exec .unpadStrict (withDin 0x0808080808080808 0)) (fun t => t.result == 0 && t.err == 0) = true := by
  decide +kernel
theorem test_unpadStrict_refuses :
    nextHas (exec .unpadStrict (withDin 0x68656c6c6f030203 0)) (fun t => t.err == 2) = true ∧
    nextHas (exec .unpadStrict (withDin 0x1122334455667709 0)) (fun t => t.err == 2) = true := by decide +kernel
-- V62
theorem test_unpadLenient : nextHas (exec .unpadLenient (withDin 0x68656c6c6f030203 8)) (fun t => t.result == 5) = true ∧
    nextHas (exec .unpadLenient (withDin 0x1122334455667709 16)) (fun t => t.result == 16) = true := by decide +kernel
theorem test_unpadLenient_short : nextHas (exec .unpadLenient (withDin 0x0000000000000008 3)) (fun t => t.result == 0) = true := by
  decide +kernel
-- V44: register access
theorem test_register_reads :
    nextHas (step { State.reset with pending := [.regRead 0x30 32] }) (fun t => t.reply == .data 0x42464331) = true ∧
    nextHas (step { State.reset with pending := [.regRead 0x3C 32] }) (fun t => t.reply == .data 0) = true ∧
    nextHas (step { State.reset with pending := [.regRead 0x04 16] }) (fun t => t.reply == .busError) = true ∧
    nextHas (step { State.reset with pending := [.regRead 0x40 32] }) (fun t => t.reply == .notSelected) = true := by
  decide +kernel
theorem test_register_writes :
    nextHas (step { State.reset with pending := [.regWrite 0x14 32 0x1234] }) (fun t => t.result == 0 && t.err == 0) = true ∧
    nextHas (step { State.reset with pending := [.regWrite 0x10 32 0x1234] }) (fun t => t.len == 0x1234) = true ∧
    nextHas (step { State.reset with pending := [.regWrite 0x02 32 0x1234] }) (fun t => t.reply == .busError) = true := by
  decide +kernel
-- R250: reset while ENC_BUF runs, after one of two blocks
theorem test_reset_during : nextHas (step { onInit with len := 16, dst := 16, pending := [.resetDuring 0x04 1] }) (fun t =>
    t.life == .unkeyed && t.mem.readBlock 16 == 0x706d9fcc1792d23a#64 && t.mem.readBlock 24 == 0#64) = true := by
  decide +kernel

/-! ## Witnesses: for every statement with hypotheses, states and operands that meet them, clause by clause -/

/-- An admission map that admits nothing. -/
def noMemory : Config := { base := 0, admitted := [] }

theorem all_admitted (a : Word) (n : Nat) : Admitted State.reset.config a n := by
  intro i _
  simp [Config.admits, Region.holds, State.reset, BitVec.le_def]
  omega

theorem none_admitted (a : Word) (n : Nat) : RefusedAt noMemory a (n + 1) a :=
  ⟨0, by omega, by simp, rfl, by simp [Admitted]⟩

/-- On the reset configuration every block is admitted. -/
theorem blocks_admitted (s : State) (h : s.config = State.reset.config) (k : Nat) : BlockAdmitted s k := by
  rw [BlockAdmitted, h]
  exact ⟨all_admitted _ _, all_admitted _ _⟩

theorem witness_ResetDuringACommand_storing :
    decode 0x04 = .ok .encBuf ∧ Instr.encBuf ∈ bufferCommands ∧ wholeBlocks (keyedBuf 2).len ≤ 2 ∧
    8 * 1 ≤ (keyedBuf 2).len.toNat ∧ (∀ j < 8 * min 1 (wholeBlocks (keyedBuf 2).len),
      8 ≠ ((keyedBuf 2).dst + BitVec.ofNat 32 j).toNat) ∧
    (∃ u, exec .encBuf { keyedBuf 2 with pending := [] } = .next u) ∧
    ∃ u, exec .encBuf { keyedBuf 2 with pending := [], len := BitVec.ofNat 32 (8 * 1) } = .next u :=
  ⟨rfl, by decide, by decide, by decide, by decide, ⟨_, rfl⟩, ⟨_, rfl⟩⟩

theorem witness_ResetDuringACommand_other :
    (∀ i ∈ Instr.cvStore :: bufferCommands, decode 0x01 ≠ .ok i) ∧ (∀ i ∈ Instr.cvStore :: bufferCommands, decode 0x102 ≠ .ok i) ∧
    decode 0x09 = .ok .cvStore ∧ ∃ u, exec .cvStore { State.reset with pending := [] } = .next u :=
  ⟨by decide, by decide, rfl, ⟨_, rfl⟩⟩

theorem witness_EveryStepKeepsTheInvariant :
    ({ State.reset with pending := [cmdWrite State.reset.config (encode .zeroize)] } : State).Inv ∧
    ∃ t, step { State.reset with pending := [cmdWrite State.reset.config (encode .zeroize)] } = .next t :=
  ⟨⟨rfl, rfl, fun _ => rfl, fun _ => rfl, nofun, by decide, fun h => absurd rfl h⟩, ⟨_, rfl⟩⟩

theorem witness_AStepTakesOneEvent :
    (∃ t, step { State.reset with pending := [.regRead 0 32] } = .next t) ∧
    ∃ t, step State.reset = .next t ∧ State.reset.pending = [] := ⟨⟨_, rfl⟩, ⟨_, rfl, rfl⟩⟩

theorem witness_AStepRunsTheDecodedCommand : decode 0x10 = .ok .unpadLenient := rfl

theorem witness_IllegalWordsRaiseIllegalCommand :
    0x11 ≤ ((0x11 : Word).extractLsb' 0 8).toNat ∧ (0x100 : Word).extractLsb' 8 24 ≠ 0 ∧
    ¬ ((0x10 : Word).extractLsb' 8 24 ≠ 0 ∨ 0x11 ≤ ((0x10 : Word).extractLsb' 0 8).toNat) := by decide

theorem witness_LifeCycleChecksComeFirst : (inLife .zeroized).life = .zeroized ∧ Instr.weakchk ∈ Instr.keysched :: needsKey ∧
    (inLife .unkeyed).life = .unkeyed ∧ Instr.cbcDecBuf ∈ needsKey := by decide

theorem witness_ZeroizedCoreRunsTheKeylessCommands : (inLife .zeroized).life = .zeroized := rfl

theorem witness_LifeCycleTransitions :
    (∃ t, exec .zeroize State.reset = .next t) ∧ (∃ t, exec .keysched State.reset = .next t) ∧
    State.reset.life ≠ .zeroized ∧ (∃ t, exec .keysched (inLife .zeroized) = .next t) ∧
    (inLife .zeroized).life = .zeroized ∧ (∃ t, exec .nop State.reset = .next t) ∧
    (∃ t, step { State.reset with pending := [.reset] } = .next t) ∧ Event.isReset .reset = true ∧
    (∃ t, step { inLife .zeroized with pending := [.regWrite 8 32 0x07] } = .next t) ∧
    (Event.regWrite 8 32 0x07).commandWord? (inLife .zeroized).config = none ∧ (Event.regWrite 8 32 0x07).isReset = false :=
  ⟨⟨_, rfl⟩, ⟨_, rfl⟩, by decide, ⟨_, rfl⟩, rfl, ⟨_, rfl⟩, ⟨_, rfl⟩, rfl, ⟨_, rfl⟩, rfl, rfl⟩

theorem witness_OnlyResetClearsSticky : (Event.memRead 0 1).isReset = false ∧
    ∃ t, step { State.reset with pending := [.memRead 0 1] } = .next t ∧ t.clean := ⟨rfl, ⟨_, rfl, rfl⟩⟩

theorem witness_MisshapenAccessIsRefused :
    ((63 : Word) - State.reset.config.base).toNat < 64 ∧ ((63 : Word) - State.reset.config.base).toNat % 4 ≠ 0 ∧
    ((0 : Word) - State.reset.config.base).toNat < 64 ∧ 16 ≠ 32 := by decide

theorem witness_HostMemoryWriteReadsBack : State.reset.mem.wf = true ∧ ([1, 2] : List Byte).length ≤ 2 ^ 32 ∧
    ∀ j < ([1, 2] : List Byte).length, 7 ≠ ((5 : Word) + BitVec.ofNat 32 j).toNat := by decide

theorem witness_CommandsWriteOnlyWhatTheTableLists : ∃ t, exec .nop State.reset = .next t ∧ t.err ≠ 0x07 :=
  ⟨_, rfl, by decide⟩

theorem witness_ErrorsChangeNothingElse :
    (∃ t, exec .padBlk { State.reset with len := 8 } = .next t ∧ t.err ≠ 0) ∧
    Instr.padBlk ∉ Instr.keysched :: bufferCommands ∧
    ∃ t, exec .keysched State.reset = .next t ∧ t.err ≠ 0 ∧ t.err ≠ 0x04 :=
  ⟨⟨_, rfl, by decide⟩, by decide, ⟨_, rfl, by decide, by decide⟩⟩

theorem witness_BufferCommandsStoreOnlyToTheirOutput : Instr.encBuf ∈ bufferCommands ∧
    (∃ t, exec .encBuf (keyedBuf 1) = .next t) ∧
    ∀ j < (keyedBuf 1).len.toNat - (keyedBuf 1).len.toNat % 8, 8 ≠ ((keyedBuf 1).dst + BitVec.ofNat 32 j).toNat :=
  ⟨by decide, ⟨_, rfl⟩, by decide⟩

theorem witness_RawCommandsNeverTouchTheChainingValue : Instr.decBuf ∈ [Instr.encBlk, .decBlk, .encBuf, .decBuf] ∧
    ∃ t, exec .decBuf (keyedBuf 1) = .next t := ⟨by decide, ⟨_, rfl⟩⟩

-- a run of KEYSCHED, and a write of ENC_BLK's word to a register other than CMD
theorem witness_KeyMaterialShowsOnlyThroughKeyCommands :
    (∀ v, (Event.regWrite 0 32 0x01).commandWord? State.reset.config = some v → ∀ i ∈ needsKey, v ≠ encode i) ∧
    (∀ v, (Event.regWrite 8 32 0x02).commandWord? State.reset.config = some v → ∀ i ∈ needsKey, v ≠ encode i) ∧
    (∃ t, step { State.reset with pending := [.regWrite 0 32 0x01] } = .next t) ∧
    (∃ t, step { State.reset with cipher := CipherState.init, pending := [.regWrite 0 32 0x01] } = .next t) ∧
    (∃ t, step { State.reset with pending := [.regWrite 8 32 0x02] } = .next t) ∧
    ∃ t, step { State.reset with cipher := CipherState.init, pending := [.regWrite 8 32 0x02] } = .next t :=
  ⟨by rintro v ⟨⟩; decide, by rintro v ⟨⟩, ⟨_, rfl⟩, ⟨_, rfl⟩, ⟨_, rfl⟩, ⟨_, rfl⟩⟩

-- R263 and R44: a run of one illegal word from reset; the host sees STATUS, ID and memory, the rest is zero (V43)
theorem test_runObservation : runObservation State.reset.config [(5, 1)] [.regWrite 0 32 0x102] =
    some { regs := [0, 0x00000508, 0, 0, 0, 0, 0, 0, 0, 0, 0, 0, 0x42464331, 0, 0, 0], mem := [(5, 1)] } := by decide +kernel

theorem witness_BlockAccessesAreCheckedAndBigEndian :
    RefusedAt ({ State.reset with config := noMemory } : State).config 5 8 5 ∧
    Admitted State.reset.config 0xFFFFFFFF 8 ∧ State.reset.mem.wf = true := ⟨none_admitted 5 7, all_admitted _ _, rfl⟩

theorem witness_CvLoadReadsEightBytes : Admitted State.reset.config State.reset.src 8 ∧
    RefusedAt ({ State.reset with config := noMemory } : State).config State.reset.src 8 0 :=
  ⟨all_admitted _ _, none_admitted 0 7⟩

theorem witness_CvStoreWritesEightBytes : State.reset.mem.wf = true ∧ Admitted State.reset.config State.reset.dst 8 ∧
    RefusedAt ({ State.reset with config := noMemory } : State).config State.reset.dst 8 0 ∧
    ∀ k < 8, 8 ≠ (State.reset.dst + BitVec.ofNat 32 k).toNat :=
  ⟨rfl, all_admitted _ _, none_admitted 0 7, by decide⟩

theorem witness_MixKeyWrapsTheKeyByteByByte : 1 ≤ 1 ∧ 1 ≤ 56 ∧ 56 ≤ 56 := by decide

theorem witness_KeyschedFollowsItsRule :
    (inLife .zeroized).life = .zeroized ∧ (inLife .keyed).life ≠ .zeroized ∧
    (inLife .keyed).len = 0 ∧ 56 < (57 : Word).toNat ∧ 1 ≤ (1 : Word).toNat ∧ (56 : Word).toNat ≤ 56 ∧
    (Admitted noMemory 0 0 ∧ noMemory.admits (0 + BitVec.ofNat 32 0) = false) ∧
    Admitted State.reset.config State.reset.src 56 ∧
    ∀ j (h : j < 56), (Vector.replicate 56 (0 : Byte))[j] =
      Memory.read State.reset.mem (State.reset.src + BitVec.ofNat 32 j).toNat :=
  ⟨rfl, by decide, rfl, by decide, by decide, by decide, ⟨by simp [Admitted], rfl⟩, all_admitted _ _,
    fun j h => by rw [Vector.getElem_replicate]; rfl⟩

theorem witness_SameKeyBytesSameBoxes :
    ({ State.reset with len := 56 } : State).life ≠ .zeroized ∧ ({ onInit with len := 56, src := 100 } : State).life ≠ .zeroized ∧
    1 ≤ (56 : Word).toNat ∧ (56 : Word).toNat ≤ 56 ∧
    Admitted State.reset.config 0 56 ∧ Admitted onInit.config 100 56 ∧
    ∀ j < 56, Memory.read State.reset.mem ((0 : Word) + BitVec.ofNat 32 j).toNat =
      Memory.read onInit.mem ((100 : Word) + BitVec.ofNat 32 j).toNat :=
  ⟨by decide, by decide, by decide, by decide, all_admitted _ _, all_admitted _ _, fun _ _ => rfl⟩

theorem witness_CyclicallyEqualKeysSameBoxes :
    ({ State.reset with len := 1 } : State).life ≠ .zeroized ∧ ({ onInit with len := 40 } : State).life ≠ .zeroized ∧
    1 ≤ (1 : Word).toNat ∧ (1 : Word).toNat ≤ 56 ∧ 1 ≤ (40 : Word).toNat ∧ (40 : Word).toNat ≤ 56 ∧
    Admitted State.reset.config 0 1 ∧ Admitted onInit.config 0 40 ∧
    ∀ t < 72, Memory.read State.reset.mem ((0 : Word) + BitVec.ofNat 32 (t % 1)).toNat =
      Memory.read onInit.mem ((0 : Word) + BitVec.ofNat 32 (t % 40)).toNat :=
  ⟨by decide, by decide, by decide, by decide, by decide, by decide, all_admitted _ _, all_admitted _ _, fun _ _ => rfl⟩

/-- The life-cycle hypotheses of EncBlkEncryptsDin, DecBlkDecryptsDin, CbcEncBlkChains, CbcDecBlkChains
and WeakchkFindsDuplicates. -/
theorem witness_BlockCommands_life : (inLife .keyed).life = .keyed ∧ (inLife .zeroized).life = .zeroized ∧
    (inLife .unkeyed).life = .unkeyed := by decide

/-- The hypotheses of EncBufGoesBlockByBlock, DecBufGoesBlockByBlock, CbcEncBufGoesBlockByBlock and
CbcDecBufGoesBlockByBlock: every block admitted; the first block's read refused; the second block's write refused. -/
theorem witness_BufferCommands_blocks :
    (keyedBuf 2).life = .keyed ∧ (∀ j < (keyedBuf 2).len.toNat / 8, BlockAdmitted (keyedBuf 2) j) ∧
    BlockRefusedAt { keyedBuf 2 with config := noMemory } 0 0 ∧
    BlockRefusedAt (admitUpTo 15 { keyedBuf 2 with dst := 8 }) 1 16 := by
  refine ⟨rfl, fun j _ => blocks_admitted _ rfl j, ⟨by simp, .inl (none_admitted 0 7)⟩, fun j hj => ?_, .inr ⟨?_, ?_⟩⟩
  · obtain rfl : j = 0 := by omega
    exact ⟨by unfold Admitted; decide, by unfold Admitted; decide⟩
  · unfold Admitted; decide
  · exact ⟨0, by decide, by decide, by decide, by simp [Admitted]⟩

theorem witness_ChainedStreamsMayBeSplit :
    8 * (1 + 1) < 2 ^ 32 ∧ (keyedBuf 2).len = BitVec.ofNat 32 (8 * (1 + 1)) ∧
    ∃ t, exec .cbcEncBuf { keyedBuf 2 with len := BitVec.ofNat 32 (8 * 1) } = .next t ∧ t.err = 0 ∧
      (∃ u, exec .cbcEncBuf { t with
        src := (keyedBuf 2).src + BitVec.ofNat 32 (8 * 1), dst := (keyedBuf 2).dst + BitVec.ofNat 32 (8 * 1),
        len := BitVec.ofNat 32 (8 * 1) } = .next u) ∧
      ∃ w, exec .cbcEncBuf (keyedBuf 2) = .next w :=
  ⟨by decide, rfl, _, rfl, rfl, ⟨_, rfl⟩, ⟨_, rfl⟩⟩

theorem witness_ChainedBlockIsOneTurnOfTheBuffer :
    (keyedBuf 1).life = .keyed ∧ (keyedBuf 1).mem.wf = true ∧ (keyedBuf 1).len = 8 ∧ BlockAdmitted (keyedBuf 1) 0 ∧
    (keyedBuf 1).din = (keyedBuf 1).mem.readBlock (keyedBuf 1).src :=
  ⟨rfl, rfl, rfl, blocks_admitted _ rfl 0, by decide⟩

theorem witness_InPlaceEqualsDisjoint :
    (keyedBuf 1).mem.wf = true ∧ (keyedBuf 1).life = .keyed ∧ (keyedBuf 1).dst = (keyedBuf 1).src ∧
    (∀ j < (keyedBuf 1).len.toNat / 8, BlockAdmitted (keyedBuf 1) j ∧ BlockAdmitted { keyedBuf 1 with dst := 8 } j) ∧
    (∀ j < (keyedBuf 1).len.toNat - (keyedBuf 1).len.toNat % 8, ∀ k < (keyedBuf 1).len.toNat - (keyedBuf 1).len.toNat % 8,
      (keyedBuf 1).src + BitVec.ofNat 32 j ≠ 8 + BitVec.ofNat 32 k) ∧
    (∃ t, exec .cbcDecBuf (keyedBuf 1) = .next t) ∧ ∃ t, exec .cbcDecBuf { keyedBuf 1 with dst := 8 } = .next t :=
  ⟨rfl, rfl, rfl,
    fun j _ => ⟨blocks_admitted (keyedBuf 1) rfl j, blocks_admitted { keyedBuf 1 with dst := 8 } rfl j⟩,
    by decide, ⟨_, rfl⟩, ⟨_, rfl⟩⟩

theorem witness_BufferRoundTripInPlace :
    (keyedBuf 2).mem.wf = true ∧ (keyedBuf 2).life = .keyed ∧ (keyedBuf 2).dst = (keyedBuf 2).src ∧
    ∀ j < (keyedBuf 2).len.toNat / 8, BlockAdmitted (keyedBuf 2) j :=
  ⟨rfl, rfl, rfl, fun j _ => blocks_admitted _ rfl j⟩

theorem witness_PadBlkFillsWithTheCount : (withDin 0 7).len.toNat ≤ 7 ∧ 7 < (withDin 0 8).len.toNat := by decide

theorem witness_UnpadStrictChecksEveryPadByte :
    (((0x0808080808080808 : Block).extractLsb' 0 8).toNat ≤ 8 ∧
      ∀ i, 8 - 8 ≤ i → i < 8 → ((0x0808080808080808 : Block).extractLsb' (56 - 8 * i) 8).toNat = 8) ∧
    8 < ((0x1122334455667709 : Block).extractLsb' 0 8).toNat ∧
    ((0x68656c6c6f030203 : Block).extractLsb' (56 - 8 * 6) 8).toNat ≠ 3 := by
  refine ⟨⟨by decide, fun i _ hi => ?_⟩, by decide, by decide⟩
  interval_cases i <;> decide

theorem witness_UnpaddingUndoesPadding : (withDin 0 7).len.toNat ≤ 7 ∧ 8 ≤ (8 : Word).toNat := by decide

theorem witness_FrameLengthLaws : (withDin 0 7).len = BitVec.ofNat 32 (15 % 8) ∧
    (withDin 0 6).len = BitVec.ofNat 32 (2 * 3 % 8) := by decide

theorem witness_FrameRoundTrip : (inLife .keyed).life = .keyed ∧ onInit.life = .keyed ∧
    (inLife .keyed).cipher = (keyedBuf 1).cipher := ⟨rfl, rfl, rfl⟩

-- R203 and V20: with an IV equal to the padded empty block, the frame's one block is the encryption of zero
theorem test_writeFrame_empty : (writeFrame 0x0808080808080808 [] onInit).map (fun r => (r.1, r.2.life)) =
    some ([8, 8, 8, 8, 8, 8, 8, 8, 0x70, 0x6d, 0x9f, 0xcc, 0x17, 0x92, 0xd2, 0x3a], .zeroized) := by decide +kernel
theorem test_readFrame_empty : (readFrame [8, 8, 8, 8, 8, 8, 8, 8, 0x70, 0x6d, 0x9f, 0xcc, 0x17, 0x92, 0xd2, 0x3a] onInit).map
    (fun r => r.1) = some [] ∧ (readFrame [1, 2, 3] onInit).map (fun r => r.1) = none := by decide +kernel

end Sys2Proof.Tests
end

section
/-! Proofs of the statements on reset, the invariant, steps, the life cycle, the register window and key material (spec
10_state.md). One inversion lemma says what a command can do (`endOf_exec`), one what an event can do
(`applyEvent_effect`), and one that what needs no key does not depend on it (`applyEvent_withKey`). -/

namespace Sys2Proof

/-! ## Decoding a command word (30_encoding.md R73) -/

theorem Instr.opcode_of_ofOpcode {b : Byte} {i : Instr} (h : Instr.ofOpcode b = some i) : i.opcode = b := by
  unfold Instr.ofOpcode at h
  split at h <;> cases h <;> rfl

/-- A word that decodes to a command is its encoding. -/
theorem eq_encode_of_decode {v : Word} {i : Instr} (h : decode v = .ok i) : v = encode i := by
  obtain ⟨hrsvd, hopc⟩ := (decode_ok_iff v i).1 h
  rw [encode, Instr.opcode_of_ofOpcode hopc, ← hrsvd]
  exact (CommandWord.toWord_ofWord v).symm

end Sys2Proof

namespace Sys2Proof.Machine

/-! ## The key state and its part of the invariant (10_state.md R37 to R41) -/

/-- The fields of the state that hold or describe a key. -/
structure KeyState where
  life   : LifeCycle
  cipher : CipherState
  kbuf   : Vector Byte 56
  weak   : Bool

/-- The key state with every key bit erased (10_state.md R41). -/
def KeyState.erased (l : LifeCycle) : KeyState := ⟨l, CipherState.zero, Vector.replicate 56 0, false⟩

/-- The key state of a state. -/
def State.keyState (s : State) : KeyState := ⟨s.life, s.cipher, s.kbuf, s.weak⟩

/-- The clauses of `State.Inv` that speak of the key state alone. -/
structure KeyState.Sound (k : KeyState) : Prop where
  kbufZero  : k.kbuf = Vector.replicate 56 0
  boxesZero : k.life ≠ .keyed → k.cipher = CipherState.zero
  weakClear : k.life ≠ .keyed → k.weak = false
  weakFound : k.weak = true → k.cipher.weakKey = true

theorem KeyState.sound_erased (l : LifeCycle) : (KeyState.erased l).Sound :=
  ⟨rfl, fun _ => rfl, fun _ => rfl, nofun⟩

/-- The invariant depends on memory, the key state and the two error fields alone. -/
theorem State.inv_iff {s : State} :
    s.Inv ↔ s.mem.wf = true ∧ s.keyState.Sound ∧ s.err.toNat ≤ 7 ∧ (s.err ≠ 0 → s.sticky = true) := by
  constructor
  · intro h
    exact ⟨h.memWf, ⟨h.kbufZero, h.boxesZero, h.weakClear, h.weakFound⟩, h.errKnown, h.errSticky⟩
  · rintro ⟨hmem, hkey, hknown, hsticky⟩
    exact ⟨hmem, hkey.kbufZero, hkey.boxesZero, hkey.weakClear, hkey.weakFound, hknown, hsticky⟩

/-- The events to come are no part of it. -/
theorem State.Inv.setPending {s : State} (h : s.Inv) (es : List Event) : ({ s with pending := es } : State).Inv := by
  obtain ⟨hmem, hkey, herr⟩ := State.inv_iff.1 h
  exact State.inv_iff.2 ⟨hmem, hkey, herr⟩

/-! ## What a command can do (30_encoding.md R77) -/

/-- What a command does to the key state. -/
inductive KeyEffect (s u : State) : Instr → Prop where
  /-- nothing -/
  | kept {i : Instr} (h : u.keyState = s.keyState) : KeyEffect s u i
  /-- WEAKCHK on a keyed core sets WEAK to what it found (42_weak_key_and_zeroize.md R150) -/
  | weakSet (hs : s.life = .keyed) (h : u.keyState = { s.keyState with weak := s.cipher.weakKey }) :
      KeyEffect s u .weakchk
  /-- KEYSCHED installs a key (40_key_schedule.md R103) -/
  | installed (hs : s.life ≠ .zeroized) (c : CipherState)
      (h : u.keyState = { KeyState.erased .keyed with cipher := c }) : KeyEffect s u .keysched
  /-- KEYSCHED fails (R106) -/
  | failed (hs : s.life ≠ .zeroized) (h : u.keyState = KeyState.erased .unkeyed) : KeyEffect s u .keysched
  /-- ZEROIZE (42_weak_key_and_zeroize.md R152) -/
  | zeroized (h : u.keyState = KeyState.erased .zeroized) : KeyEffect s u .zeroize

/-- The effect depends on the key state alone. -/
theorem KeyEffect.congr {i : Instr} {s u u' : State} (h : KeyEffect s u i) (hk : u'.keyState = u.keyState) :
    KeyEffect s u' i := by
  cases h with
  | kept h => exact .kept (hk.trans h)
  | weakSet hs h => exact .weakSet hs (hk.trans h)
  | installed hs c h => exact .installed hs c (hk.trans h)
  | failed hs h => exact .failed hs (hk.trans h)
  | zeroized h => exact .zeroized (hk.trans h)

/-- What holds of the state `u` in which a command that began in `s` ends, before the end itself is reported. -/
structure Prepared (i : Instr) (s u : State) : Prop where
  config  : u.config = s.config
  pending : u.pending = s.pending
  sticky  : u.sticky = s.sticky
  memWf   : s.mem.wf = true → u.mem.wf = true
  key     : KeyEffect s u i

/-- The two ends of a command (00_scope.md R11). -/
inductive Ended (u : State) : State → Prop where
  | well : Ended u u.clearErr
  | error (e : ErrorCause) : Ended u (u.reportError e)

/-- A result that is an end of the command `i`, begun in `s`. -/
def EndOf (i : Instr) (s : State) (r : Result) : Prop := ∃ u t, r = .next t ∧ Prepared i s u ∧ Ended u t

theorem Prepared.refl (i : Instr) (s : State) : Prepared i s s := ⟨rfl, rfl, rfl, id, .kept rfl⟩

theorem Prepared.finish {i : Instr} {s u : State} (h : Prepared i s u) : EndOf i s (finish u) :=
  ⟨u, _, rfl, h, .well⟩

theorem Prepared.raise {i : Instr} {s u : State} (h : Prepared i s u) (e : ErrorCause) : EndOf i s (raise e u) :=
  ⟨u, _, rfl, h, .error e⟩

theorem Prepared.raiseBusError {i : Instr} {s u : State} (h : Prepared i s u) (f : Word) :
    EndOf i s (raiseBusError f u) :=
  have hf : Prepared i s { u with faddr := f } :=
    ⟨h.config, h.pending, h.sticky, h.memWf, h.key.congr rfl⟩
  hf.raise .busError

theorem endOf_requireKeyed {i : Instr} {s : State} {r : Result} (h : s.life = .keyed → EndOf i s r) :
    EndOf i s (requireKeyed s r) := by
  obtain ⟨hk, hr⟩ | ⟨e, -, hr⟩ := requireKeyed_cases s r
  · rw [hr]
    exact h hk
  · rw [hr]
    exact (Prepared.refl i s).raise e

/-- The state after some blocks of a buffer command differs from the first in memory, CV and RESULT alone. -/
theorem prepared_atBlock (i : Instr) (s : State) (out : Block → Block → Block) (nx : Block → Block → Block → Block)
    (k : Nat) (v : Word) : Prepared i s ((s.atBlock out nx k).setResult v) :=
  ⟨rfl, rfl, rfl, fun h => wf_afterBlocks h k, .kept rfl⟩

/-- A buffer loop ends, whatever its transform and chaining rule. -/
theorem endOf_bufferLoop (i : Instr) {s : State} {transform : State → Block → Block}
    {chain : State → Block → Block → State} {out : Block → Block → Block} {nx : Block → Block → Block → Block}
    (hr : LoopRule transform chain s.cipher out nx) (n : Nat) : EndOf i s (bufferLoop transform chain n 0 s) := by
  obtain h | ⟨k, -, f, h⟩ := bufferLoop_cases hr n
  · exact h ▸ (prepared_atBlock i s out nx n _).finish
  · exact h ▸ (prepared_atBlock i s out nx k _).raiseBusError f

theorem endOf_execCvLoad (s : State) : EndOf .cvLoad s (execCvLoad s) := by
  unfold execCvLoad
  split
  · exact (Prepared.refl _ s).raiseBusError _
  · exact Prepared.finish ⟨rfl, rfl, rfl, id, .kept rfl⟩

theorem endOf_execCvStore (s : State) : EndOf .cvStore s (execCvStore s) := by
  unfold execCvStore
  split
  · exact (Prepared.refl _ s).raiseBusError _
  next h =>
    rw [memWriteBlock_eq h]
    exact Prepared.finish ⟨rfl, rfl, rfl, fun hm => Memory.wf_writeBlock hm _ _, .kept rfl⟩

/-- All that KEYSCHED can do (40_key_schedule.md R103, R106). -/
theorem execKeysched_cases (s : State) :
    (s.life = .zeroized ∧ execKeysched s = raise .invalidated s) ∨
      s.life ≠ .zeroized ∧
        ((∃ e f, (e = .invalidKeyLength ∨ e = .busError) ∧ execKeysched s = failKeysched e { s with faddr := f }) ∨
          ∃ kbuf, execKeysched s = finish (installKey s.len.toNat { s with kbuf := kbuf })) := by
  by_cases hz : s.life = .zeroized
  · exact .inl ⟨hz, requireNotZeroized_zeroized hz _⟩
  · refine .inr ⟨hz, ?_⟩
    rw [execKeysched, requireNotZeroized_other hz]
    split
    · exact .inl ⟨_, s.faddr, .inl rfl, rfl⟩
    · split
      · exact .inl ⟨_, _, .inr rfl, rfl⟩
      · exact .inr ⟨_, rfl⟩

theorem endOf_failKeysched {s : State} (hz : s.life ≠ .zeroized) (e : ErrorCause) (f : Word) :
    EndOf .keysched s (failKeysched e { s with faddr := f }) := by
  rw [failKeysched]
  refine Prepared.raise ?_ e
  exact ⟨rfl, rfl, rfl, id, .failed hz rfl⟩

/-- The whole state in which KEYSCHED ends well (40_key_schedule.md R103). -/
theorem installKey_eq (kl : Nat) (s : State) :
    installKey kl s =
      { s with life := .keyed, cipher := keySchedule s.kbuf kl, kbuf := Vector.replicate 56 0, weak := false } := by
  simp [installKey]

theorem endOf_execKeysched (s : State) : EndOf .keysched s (execKeysched s) := by
  obtain ⟨-, h⟩ | ⟨hz, ⟨e, f, -, h⟩ | ⟨kbuf, h⟩⟩ := execKeysched_cases s
  · rw [h]
    exact (Prepared.refl _ s).raise _
  · rw [h]
    exact endOf_failKeysched hz e f
  · rw [h, installKey_eq]
    exact Prepared.finish ⟨rfl, rfl, rfl, id, .installed hz _ rfl⟩

theorem endOf_execPadBlk (s : State) : EndOf .padBlk s (execPadBlk s) := by
  unfold execPadBlk
  split
  · exact (Prepared.refl _ s).raise _
  · exact Prepared.finish ⟨rfl, rfl, rfl, id, .kept rfl⟩

theorem endOf_execUnpadStrict (s : State) : EndOf .unpadStrict s (execUnpadStrict s) := by
  unfold execUnpadStrict
  split
  · exact (Prepared.refl _ s).raise _
  · split
    · exact Prepared.finish ⟨rfl, rfl, rfl, id, .kept rfl⟩
    · exact (Prepared.refl _ s).raise _

/-- Every command ends by `finish` or `raise`, and changes no more than `Prepared` allows (30_encoding.md R77). -/
theorem endOf_exec (i : Instr) (s : State) : EndOf i s (exec i s) := by
  cases i with
  | nop => exact (Prepared.refl _ s).finish
  | keysched => exact endOf_execKeysched s
  | encBlk | decBlk | cbcEncBlk | cbcDecBlk =>
    exact endOf_requireKeyed fun _ => Prepared.finish ⟨rfl, rfl, rfl, id, .kept rfl⟩
  | encBuf => exact endOf_requireKeyed fun _ => endOf_bufferLoop _ (loopRule_encBuf s.cipher) _
  | decBuf => exact endOf_requireKeyed fun _ => endOf_bufferLoop _ (loopRule_decBuf s.cipher) _
  | cbcEncBuf => exact endOf_requireKeyed fun _ => endOf_bufferLoop _ (loopRule_cbcEncBuf s.cipher) _
  | cbcDecBuf => exact endOf_requireKeyed fun _ => endOf_bufferLoop _ (loopRule_cbcDecBuf s.cipher) _
  | weakchk => exact endOf_requireKeyed fun hk => Prepared.finish ⟨rfl, rfl, rfl, id, .weakSet hk rfl⟩
  | zeroize => exact Prepared.finish ⟨rfl, rfl, rfl, id, .zeroized rfl⟩
  | cvLoad => exact endOf_execCvLoad s
  | cvStore => exact endOf_execCvStore s
  | padBlk => exact endOf_execPadBlk s
  | unpadStrict => exact endOf_execUnpadStrict s
  | unpadLenient => exact Prepared.finish ⟨rfl, rfl, rfl, id, .kept rfl⟩

/-- So does every command word, an illegal one as a command that changes nothing before it raises. -/
theorem endOf_runWord (v : Word) (s : State) : ∃ i, EndOf i s (runWord v s) := by
  unfold runWord
  split
  · exact ⟨.nop, (Prepared.refl _ s).raise _⟩
  · exact ⟨_, endOf_exec _ s⟩

/-! ### What the effect on the key state leaves -/

theorem KeyEffect.sound {i : Instr} {s u : State} (h : KeyEffect s u i) (hs : s.keyState.Sound) :
    u.keyState.Sound := by
  cases h with
  | kept h => exact h ▸ hs
  | weakSet hk h =>
    rw [h]
    exact ⟨hs.kbufZero, hs.boxesZero, fun hne => absurd hk hne, id⟩
  | installed _ c h =>
    rw [h]
    exact ⟨rfl, fun hne => absurd rfl hne, fun _ => rfl, nofun⟩
  | failed _ h => exact h ▸ KeyState.sound_erased _
  | zeroized h => exact h ▸ KeyState.sound_erased _

/-- Only KEYSCHED and ZEROIZE change the life-cycle state (10_state.md R40). -/
theorem KeyEffect.life_eq {i : Instr} {s u : State} (h : KeyEffect s u i) (hz : i ≠ .zeroize) (hk : i ≠ .keysched) :
    u.life = s.life := by
  cases h with
  | kept h => exact congrArg KeyState.life h
  | weakSet _ h => exact congrArg KeyState.life h
  | installed | failed => exact absurd rfl hk
  | zeroized => exact absurd rfl hz

/-- No command leaves ZEROIZED (R40). -/
theorem KeyEffect.life_zeroized {i : Instr} {s u : State} (h : KeyEffect s u i) (hs : s.life = .zeroized) :
    u.life = .zeroized := by
  cases h with
  | kept h => exact (congrArg KeyState.life h).trans hs
  | weakSet _ h => exact (congrArg KeyState.life h).trans hs
  | installed hne | failed hne => exact absurd hs hne
  | zeroized h => exact congrArg KeyState.life h

/-! ### What the end itself leaves -/

theorem Ended.keyState_eq {u t : State} (h : Ended u t) : t.keyState = u.keyState := by cases h <;> rfl

theorem Ended.mem_eq {u t : State} (h : Ended u t) : t.mem = u.mem := by cases h <;> rfl

theorem Ended.life_eq {u t : State} (h : Ended u t) : t.life = u.life := congrArg KeyState.life h.keyState_eq

theorem Ended.config_eq {u t : State} (h : Ended u t) : t.config = u.config := by cases h <;> rfl

theorem Ended.pending_eq {u t : State} (h : Ended u t) : t.pending = u.pending := by cases h <;> rfl

theorem Ended.err_le {u t : State} (h : Ended u t) : t.err.toNat ≤ 7 := by
  cases h with
  | well => exact Nat.zero_le 7
  | error e => exact e.code_le

theorem Ended.sticky_of_err {u t : State} (h : Ended u t) (he : t.err ≠ 0) : t.sticky = true := by
  cases h with
  | well => exact absurd rfl he
  | error e => rfl

/-- A command that leaves STICKY clear ended well and found it clear (10_state.md R25). -/
theorem Ended.of_clean {u t : State} (h : Ended u t) (hc : t.clean) : u.clean ∧ t.err = 0 := by
  cases h with
  | well => exact ⟨hc, rfl⟩
  | error e => exact absurd hc (by simp [State.clean])

theorem EndOf.wf_memAfter {i : Instr} {s : State} {r : Result} (h : EndOf i s r) (s₀ : State)
    (hm : s.mem.wf = true) : (memAfter s₀ r).wf = true := by
  obtain ⟨u, t, rfl, hp, ht⟩ := h
  exact (congrArg Memory.wf ht.mem_eq).trans (hp.memWf hm)

/-! ## The register window as the host addresses it (10_state.md R22, R23) -/

/-- A 32-bit access at a register's offset selects the register. -/
theorem select_regOffset (c : Config) (r : Reg) :
    select c (c.base + BitVec.ofNat 32 (regOffset r)) 32 = .reg r := by
  have hoff : c.base + BitVec.ofNat 32 (regOffset r) - c.base = BitVec.ofNat 32 (regOffset r) := by
    rw [BitVec.add_comm, BitVec.add_sub_cancel]
  rw [select, hoff]
  cases r <;> rfl

section
variable {s : State} {addr v : Word} {width : Nat}

theorem hostWrite_cmd (h : select s.config addr width = .reg .cmd) :
    hostWrite addr width v s = acknowledge (runWord v s) := by rw [hostWrite, h]

theorem hostWrite_reg {r : Reg} (h : select s.config addr width = .reg r) (hr : r ≠ .cmd) :
    hostWrite addr width v s = .next { writeReg s v r with reply := .ack } := by
  rw [hostWrite, h]
  cases r with
  | cmd => exact absurd rfl hr
  | _ => rfl

theorem hostWrite_refused (h : select s.config addr width = .refused) :
    hostWrite addr width v s = .next { s with reply := .busError } := by rw [hostWrite, h]

theorem hostWrite_outside (h : select s.config addr width = .outside) :
    hostWrite addr width v s = .next { s with reply := .notSelected } := by rw [hostWrite, h]

theorem hostRead_reg {r : Reg} (h : select s.config addr width = .reg r) :
    hostRead addr width s = .next { s with reply := .data (readReg s r) } := by rw [hostRead, h]

/-- A host read changes the reply alone (20_memory.md R58). -/
theorem hostRead_reply (s : State) (addr : Word) (width : Nat) :
    ∃ r, hostRead addr width s = .next { s with reply := r } := by
  unfold hostRead
  split <;> exact ⟨_, rfl⟩

end

/-! ## What an event can do -/

/-- What an event other than a command or a reset leaves: the operand registers, the bytes of memory and the reply may
be new. -/
structure Quiet (s t : State) : Prop where
  key     : t.keyState = s.keyState
  err     : t.err = s.err
  sticky  : t.sticky = s.sticky
  config  : t.config = s.config
  pending : t.pending = s.pending
  memWf   : s.mem.wf = true → t.mem.wf = true

theorem Quiet.setReply (s : State) (r : Reply) : Quiet s { s with reply := r } := ⟨rfl, rfl, rfl, rfl, rfl, id⟩

theorem Quiet.writeReg (s : State) (v : Word) (r : Reg) (p : Reply) : Quiet s { writeReg s v r with reply := p } := by
  cases r <;> exact ⟨rfl, rfl, rfl, rfl, rfl, id⟩

theorem Quiet.hostMemWrite (s : State) (addr : Word) (bs : List Byte) : Quiet s (hostMemWrite addr bs s) :=
  ⟨rfl, rfl, rfl, rfl, rfl, fun h => Memory.wf_writeBytes h addr 0 bs⟩

/-- The three things an event can do to the core. -/
inductive EventEffect (e : Event) (s : State) : State → Prop where
  /-- it runs a command word to its end -/
  | command {i : Instr} {u t : State} (hr : e.isReset = false) (hc : e.commandWord? s.config ≠ none)
      (hp : Prepared i s u) (ht : Ended u t) : EventEffect e s { t with reply := .ack }
  /-- it leaves all but operand registers, memory and the reply -/
  | quiet {t : State} (hr : e.isReset = false) (h : Quiet s t) : EventEffect e s t
  /-- it resets the core, with what an abandoned command wrote in memory -/
  | reset (hr : e.isReset = true) (m : Memory) (hm : s.mem.wf = true → m.wf = true) :
      EventEffect e s ({ s with mem := m } : State).resetCore

theorem hostWrite_effect (addr : Word) (width : Nat) (v : Word) (s : State) :
    ∃ t, hostWrite addr width v s = .next t ∧ EventEffect (.regWrite addr width v) s t := by
  cases hsel : select s.config addr width with
  | refused => exact ⟨_, hostWrite_refused hsel, .quiet rfl (.setReply s _)⟩
  | outside => exact ⟨_, hostWrite_outside hsel, .quiet rfl (.setReply s _)⟩
  | reg r =>
    by_cases hr : r = .cmd
    · subst hr
      obtain ⟨i, u, t, hrun, hp, ht⟩ := endOf_runWord v s
      refine ⟨_, by rw [hostWrite_cmd hsel, hrun]; rfl, .command rfl ?_ hp ht⟩
      simp [Event.commandWord?, hsel]
    · exact ⟨_, hostWrite_reg hsel hr, .quiet rfl (.writeReg s v r _)⟩

/-- The whole blocks of an abandoned command leave memory canonical. -/
theorem wf_abandonedMem (i : Instr) (blocks : Nat) {s : State} (hm : s.mem.wf = true) :
    (abandonedMem i blocks s).wf = true := by
  cases i with
  | encBuf | decBuf | cbcEncBuf | cbcDecBuf => exact (endOf_exec _ _).wf_memAfter s hm
  | cvStore =>
    rw [abandonedMem]
    split
    · exact hm
    · exact (endOf_exec _ s).wf_memAfter s hm
  | nop | keysched | encBlk | decBlk | weakchk | zeroize | cvLoad | cbcEncBlk | cbcDecBlk | padBlk | unpadStrict
  | unpadLenient => exact hm

theorem resetDuring_effect (v : Word) (blocks : Nat) (s : State) :
    EventEffect (.resetDuring v blocks) s (resetDuring v blocks s) := by
  unfold resetDuring
  split
  · exact .reset rfl s.mem id
  · exact .reset rfl _ (wf_abandonedMem _ blocks)

/-- Every event has one of the three effects. -/
theorem applyEvent_effect (e : Event) (s : State) : ∃ t, applyEvent e s = .next t ∧ EventEffect e s t := by
  cases e with
  | regWrite addr width v => exact hostWrite_effect addr width v s
  | regRead addr width =>
    obtain ⟨r, h⟩ := hostRead_reply s addr width
    exact ⟨_, h, .quiet rfl (.setReply s r)⟩
  | memWrite addr bs => exact ⟨_, rfl, .quiet rfl (.hostMemWrite s addr bs)⟩
  | memRead addr count => exact ⟨_, rfl, .quiet rfl (.setReply s _)⟩
  | reset => exact ⟨_, rfl, .reset rfl s.mem id⟩
  | resetDuring v blocks => exact ⟨_, rfl, resetDuring_effect v blocks s⟩

theorem step_nil {s : State} (h : s.pending = []) : step s = .next s := by rw [step, h]

theorem step_cons {s : State} {e : Event} {rest : List Event} (h : s.pending = e :: rest) :
    step s = applyEvent e { s with pending := rest } := by rw [step, h]

/-- What a step with the event `e` in front can do. -/
theorem step_effect {s t : State} {e : Event} {rest : List Event} (hpending : s.pending = e :: rest)
    (h : step s = .next t) : EventEffect e { s with pending := rest } t := by
  obtain ⟨t', h', heffect⟩ := applyEvent_effect e { s with pending := rest }
  rw [step_cons hpending, h'] at h
  cases h
  exact heffect

/-! ## The invariant (10_state.md R39, R41) -/

/-- Reset meets the invariant, whatever the platform fixes and the host has written. -/
theorem State.resetCore_inv {s : State} (h : s.mem.wf = true) : s.resetCore.Inv :=
  State.inv_iff.2 ⟨h, KeyState.sound_erased _, Nat.zero_le 7, fun hne => absurd rfl hne⟩

theorem EventEffect.inv {e : Event} {s t : State} (h : EventEffect e s t) (hs : s.Inv) : t.Inv := by
  obtain ⟨hmem, hkey, hknown, hsticky⟩ := State.inv_iff.1 hs
  cases h with
  | @command i u t hr hc hp ht =>
    have hmem' : t.mem.wf = true := ht.mem_eq ▸ hp.memWf hmem
    have hkey' : t.keyState.Sound := ht.keyState_eq ▸ hp.key.sound hkey
    exact State.inv_iff.2 ⟨hmem', hkey', ht.err_le, ht.sticky_of_err⟩
  | quiet hr h => exact State.inv_iff.2 ⟨h.memWf hmem, h.key ▸ hkey, h.err ▸ hknown, h.err ▸ h.sticky ▸ hsticky⟩
  | reset hr m hm => exact State.resetCore_inv (hm hmem)

/-- Settles O4: the invariant speaks of memory, the key state and the error fields, and each effect of an event keeps
those. -/
theorem everyStepKeepsTheInvariant : Obligations.EveryStepKeepsTheInvariant := by
  intro s t hs hstep
  cases hp : s.pending with
  | nil =>
    rw [step_nil hp] at hstep
    cases hstep
    exact hs
  | cons e rest =>
    have htaken : ({ s with pending := rest } : State).Inv := hs.setPending rest
    exact (step_effect hp hstep).inv htaken

/-- Settles O3: reset of a state with empty memory. -/
theorem resetStateMeetsTheInvariant : Obligations.ResetStateMeetsTheInvariant := 
  State.resetCore_inv (s := State.reset) rfl

/-! ## Reset -/

theorem CipherState.zero_p (i : Fin 18) : CipherState.zero.p[i] = 0 := Vector.getElem_replicate i.isLt

theorem CipherState.zero_s (b : Fin 4) (k : Fin 256) : CipherState.zero.s[b][k] = 0 := by
  simp [CipherState.zero]

/-- Reset gives every row of the table its value (10_state.md R44). -/
theorem State.resetCore_atReset (s : State) : s.resetCore.AtReset where
  life := rfl
  p := CipherState.zero_p
  s := CipherState.zero_s
  kbuf i := Vector.getElem_replicate i.isLt
  src := rfl
  dst := rfl
  len := rfl
  result := rfl
  din := ⟨rfl, rfl⟩
  dout := ⟨rfl, rfl⟩
  cv := ⟨rfl, rfl⟩
  faddr := rfl
  weak := rfl
  sticky := rfl
  err := rfl

/-- Settles O1: `State.reset` is the reset of itself. -/
theorem resetGivesEveryFieldItsValue : Obligations.ResetGivesEveryFieldItsValue :=
  ⟨State.resetCore_atReset State.reset, fun _ _ => ⟨_, rfl, State.resetCore_atReset _, rfl⟩⟩

/-! ## One event a step, the life cycle and STICKY -/

theorem EventEffect.config_eq {e : Event} {s t : State} (h : EventEffect e s t) : t.config = s.config := by
  cases h with
  | command hr hc hp ht => exact ht.config_eq.trans hp.config
  | quiet hr h => exact h.config
  | reset => rfl

theorem EventEffect.pending_eq {e : Event} {s t : State} (h : EventEffect e s t) : t.pending = s.pending := by
  cases h with
  | command hr hc hp ht => exact ht.pending_eq.trans hp.pending
  | quiet hr h => exact h.pending
  | reset => rfl

/-- Settles O6, by the effects of an event on the configuration and the pending events. -/
theorem aStepTakesOneEvent : Obligations.AStepTakesOneEvent := by
  intro s t hstep
  cases hp : s.pending with
  | nil =>
    rw [step_nil hp] at hstep
    cases hstep
    exact ⟨rfl, hp, fun _ => rfl⟩
  | cons e rest =>
    have heffect := step_effect hp hstep
    exact ⟨heffect.config_eq, heffect.pending_eq, nofun⟩

theorem EventEffect.life_of_isReset {e : Event} {s t : State} (h : EventEffect e s t) (hr : e.isReset = true) :
    t.life = .unkeyed := by
  cases h with
  | command hr' | quiet hr' => cases hr.symm.trans hr'
  | reset => rfl

theorem EventEffect.life_zeroized {e : Event} {s t : State} (h : EventEffect e s t) (hr : e.isReset = false)
    (hs : s.life = .zeroized) : t.life = .zeroized := by
  cases h with
  | command _ hc hp ht => exact ht.life_eq.trans (hp.key.life_zeroized hs)
  | quiet _ h => exact (congrArg KeyState.life h.key).trans hs
  | reset hr' => cases hr.symm.trans hr'

theorem EventEffect.life_of_no_command {e : Event} {s t : State} (h : EventEffect e s t)
    (hc : e.commandWord? s.config = none) (hr : e.isReset = false) : t.life = s.life := by
  cases h with
  | command _ hc' => exact absurd hc hc'
  | quiet _ h => exact congrArg KeyState.life h.key
  | reset hr' => cases hr.symm.trans hr'

/-- KEYSCHED on a core that is not zeroized ends KEYED, or UNKEYED with one of its two errors (10_state.md R40). -/
theorem execKeysched_life {s t : State} (h : exec .keysched s = .next t) (hz : s.life ≠ .zeroized) :
    t.err = 0 ∧ t.life = .keyed ∨ (t.err = 0x01 ∨ t.err = 0x07) ∧ t.life = .unkeyed := by
  change execKeysched s = .next t at h
  obtain ⟨hz', -⟩ | ⟨-, ⟨e, f, he, hrun⟩ | ⟨kbuf, hrun⟩⟩ := execKeysched_cases s
  · exact absurd hz' hz
  · cases hrun.symm.trans h
    obtain rfl | rfl := he
    · exact .inr ⟨.inl rfl, rfl⟩
    · exact .inr ⟨.inr rfl, rfl⟩
  · cases hrun.symm.trans h
    exact .inl ⟨rfl, rfl⟩

theorem execKeysched_life_zeroized {s t : State} (h : exec .keysched s = .next t) (hz : s.life = .zeroized) :
    t.err = 0x04 ∧ t.life = .zeroized := by
  have hrun : exec .keysched s = raise .invalidated s := requireNotZeroized_zeroized hz _
  cases hrun.symm.trans h
  exact ⟨rfl, hz⟩

theorem exec_life_eq {i : Instr} {s t : State} (h : exec i s = .next t) (hz : i ≠ .zeroize) (hk : i ≠ .keysched) :
    t.life = s.life := by
  obtain ⟨u, t', h', hp, ht⟩ := endOf_exec i s
  cases h'.symm.trans h
  exact ht.life_eq.trans (hp.key.life_eq hz hk)

/-- Settles O14: ZEROIZE and KEYSCHED case by case, every other command and every event by its effect on the key
state. -/
theorem lifeCycleTransitions : Obligations.LifeCycleTransitions := by
  refine ⟨⟨rfl, rfl, rfl⟩, fun i s t h => ⟨?_, ?_, ?_, exec_life_eq h⟩, fun s t e rest h => ?_⟩
  · rintro rfl
    cases h
    rfl
  · rintro rfl
    exact execKeysched_life h
  · rintro rfl
    exact execKeysched_life_zeroized h
  · have heffect := step_effect rfl h
    exact ⟨heffect.life_of_isReset, heffect.life_zeroized, heffect.life_of_no_command⟩

/-- Settles O15: of the effects of an event, only a reset clears STICKY. -/
theorem onlyResetClearsSticky : Obligations.OnlyResetClearsSticky := by
  intro s t e rest hr hstep hclean
  cases step_effect rfl hstep with
  | command _ hc hp ht =>
    obtain ⟨hu, herr⟩ := ht.of_clean hclean
    exact ⟨hp.sticky.symm.trans hu, .inl herr⟩
  | quiet _ h => exact ⟨h.sticky.symm.trans hclean, .inr h.err⟩
  | reset hr' => cases hr.symm.trans hr'


/-! ## Reads and writes of the registers (10_state.md R23 to R36) -/

@[simp] theorem readReg_setPending (s : State) (es : List Event) (r : Reg) :
    readReg { s with pending := es } r = readReg s r := by cases r <;> rfl

theorem writeReg_setPending (s : State) (es : List Event) (v : Word) (r : Reg) :
    writeReg { s with pending := es } v r = { writeReg s v r with pending := es } := by cases r <;> rfl

/-- A 32-bit host read at a register's offset. -/
theorem step_readReg (s : State) (r : Reg) (rest : List Event) :
    step { s with pending := .regRead (s.config.base + BitVec.ofNat 32 (regOffset r)) 32 :: rest } =
      .next { s with pending := rest, reply := .data (readReg s r) } := by
  rw [← readReg_setPending s rest r]
  exact hostRead_reg (s := { s with pending := rest }) (select_regOffset s.config r)

/-- A 32-bit host write at the offset of a register other than `CMD`. -/
theorem step_writeReg (s : State) (v : Word) (rest : List Event) {r : Reg} (hr : r ≠ .cmd) :
    step { s with pending := .regWrite (s.config.base + BitVec.ofNat 32 (regOffset r)) 32 v :: rest } =
      .next { writeReg s v r with pending := rest, reply := .ack } := by
  have hwrite := hostWrite_reg (s := { s with pending := rest }) (v := v) (select_regOffset s.config r) hr
  rw [writeReg_setPending] at hwrite
  exact hwrite

/-- A 32-bit host write to `CMD`. -/
theorem step_writeCmd (s : State) (v : Word) (rest : List Event) :
    step { s with pending := cmdWrite s.config v :: rest } = acknowledge (runWord v { s with pending := rest }) :=
  hostWrite_cmd (s := { s with pending := rest }) (select_regOffset s.config .cmd)

/-- Settles O17: the list is that of `windowRegs`, with each register's offset and value. -/
theorem registerReadsReturnTheMap : Obligations.RegisterReadsReturnTheMap := by
  intro s rest q hq
  change q ∈ windowRegs.map (fun r => (regOffset r, readReg s r)) at hq
  obtain ⟨r, -, rfl⟩ := List.mem_map.1 hq
  exact step_readReg s r rest

/-- The registers whose writes are ignored (10_state.md R36). -/
def readOnlyRegs : List Reg := [.status, .result, .doutHi, .doutLo, .id, .faddr, .rsvd38, .rsvd3C]

theorem writeReg_readOnly (s : State) (v : Word) {r : Reg} (hr : r ∈ readOnlyRegs) : r ≠ .cmd ∧ writeReg s v r = s := by
  cases r <;> simp [readOnlyRegs, writeReg] at hr ⊢

/-- The registers a host write sets (R26 to R32). -/
def operandRegs : List Reg := [.src, .dst, .len, .dinHi, .dinLo, .cvHi, .cvLo]

/-- Settles O20: the list is that of `operandRegs`, with each register's offset and the state its write leaves. -/
theorem operandRegisterWrites : Obligations.OperandRegisterWrites := by
  intro s v rest q hq
  change q ∈ operandRegs.map (fun r => (regOffset r, writeReg s v r)) at hq
  obtain ⟨r, hr, rfl⟩ := List.mem_map.1 hq
  have hcmd : r ≠ .cmd := by
    rintro rfl
    simp [operandRegs] at hr
  exact step_writeReg s v rest hcmd

/-! ## STATUS (10_state.md R25, R43) -/

/-- `STATUS` bit by bit. -/
theorem State.getLsbD_status (s : State) (i : Nat) :
    s.status.getLsbD i =
      if i < 2 then s.life.code.getLsbD i
      else if i = 2 then s.weak
      else if i = 3 then s.sticky
      else if i < 8 then false
      else s.err.getLsbD (i - 8) := by
  simp only [State.status, BitVec.getLsbD_append, BitVec.getLsbD_zero, BitVec.getLsbD_ofBool]
  split
  · rfl
  · grind

theorem State.status_life (s : State) : s.status.extractLsb' 0 2 = s.life.code := by
  apply BitVec.eq_of_getLsbD_eq
  intro i hi
  simp [State.getLsbD_status, hi]

theorem State.status_err (s : State) : s.status.extractLsb' 8 8 = s.err := by
  apply BitVec.eq_of_getLsbD_eq
  intro i hi
  have hfield : ¬ 8 + i < 2 ∧ ¬ 8 + i = 2 ∧ ¬ 8 + i = 3 := by omega
  simp [State.getLsbD_status, hi, hfield]

theorem State.status_reserved (s : State) : s.status.extractLsb' 4 4 = 0 ∧ s.status.extractLsb' 16 16 = 0 := by
  constructor
  all_goals
    apply BitVec.eq_of_getLsbD_eq
    intro i hi
    simp only [BitVec.getLsbD_extractLsb', State.getLsbD_status]
    grind

/-- `STATUS` as the formula of R43. -/
theorem State.status_eq_or (s : State) :
    s.status = (s.err.setWidth 32 <<< 8) ||| ((BitVec.ofBool s.sticky).setWidth 32 <<< 3) |||
      ((BitVec.ofBool s.weak).setWidth 32 <<< 2) ||| s.life.code.setWidth 32 := by
  apply BitVec.eq_of_getLsbD_eq
  intro i hi
  rw [State.getLsbD_status]
  simp only [BitVec.getLsbD_or, BitVec.getLsbD_shiftLeft, BitVec.getLsbD_setWidth, BitVec.getLsbD_ofBool]
  grind

/-- Settles O18: each field is read off the bits of `STATUS`. -/
theorem statusHoldsItsFields : Obligations.StatusHoldsItsFields := by
  intro s
  obtain ⟨hlow, hhigh⟩ := s.status_reserved
  refine ⟨?_, s.getLsbD_status 2, s.getLsbD_status 3, hlow, s.status_err, hhigh, s.status_eq_or⟩
  rw [s.status_life]
  cases s.life <;> rfl

/-- Settles O19: the offsets are those of `readOnlyRegs` and of the two reserved registers. -/
theorem fixedAndReadOnlyRegistersIgnoreWrites : Obligations.FixedAndReadOnlyRegistersIgnoreWrites := by
  intro s v rest
  refine ⟨fun off hoff => ?_, step_readReg s .id rest, fun off hoff => ?_, s.status_reserved⟩
  · change off ∈ readOnlyRegs.map regOffset at hoff
    obtain ⟨r, hr, rfl⟩ := List.mem_map.1 hoff
    obtain ⟨hcmd, hsame⟩ := writeReg_readOnly s v hr
    rw [step_writeReg s v rest hcmd, hsame]
  · change off ∈ [Reg.rsvd38, Reg.rsvd3C].map regOffset at hoff
    obtain ⟨r, hr, rfl⟩ := List.mem_map.1 hoff
    rw [step_readReg]
    obtain rfl | rfl : r = .rsvd38 ∨ r = .rsvd3C := by simpa using hr
    · rfl
    · rfl

/-- Settles O8: both events are a write to `CMD`, and `decode` picks the command. -/
theorem aStepRunsTheDecodedCommand : Obligations.AStepRunsTheDecodedCommand := by
  intro s v i rest hdecode
  have hrun : ∀ u : State, runWord v u = exec i u := fun u => by rw [runWord, hdecode]
  constructor
  · rw [← hrun, ← step_writeCmd, cmdWrite, regOffset, BitVec.add_zero]
  · rw [← hrun, State.withFetchWord, Nat.mod_eq_of_lt v.isLt, BitVec.ofNat_toNat, BitVec.setWidth_eq]
    exact step_writeCmd s v s.pending

/-! ## Key material shows only through the commands that need a key (10_state.md R37 to R39) -/

/-- The state with other boxes and another key buffer. -/
def State.withKey (s : State) (c : CipherState) (k : Vector Byte 56) : State := { s with cipher := c, kbuf := k }

/-- Two results that answer states which differ in key material alone. -/
def AlikeButKey (r r' : Result) : Prop := ∃ t c k, r = .next t ∧ r' = .next (State.withKey t c k)

theorem AlikeButKey.memAfter_eq {r r' : Result} (h : AlikeButKey r r') (s s' : State) :
    memAfter s' r' = memAfter s r := by
  obtain ⟨t, c, k, rfl, rfl⟩ := h
  rfl

theorem AlikeButKey.acknowledge {r r' : Result} (h : AlikeButKey r r') :
    AlikeButKey (acknowledge r) (acknowledge r') := by
  obtain ⟨t, c, k, rfl, rfl⟩ := h
  exact ⟨{ t with reply := .ack }, c, k, rfl, rfl⟩

section
variable (s : State) (c : CipherState) (k : Vector Byte 56)

theorem AlikeButKey.next_withKey : AlikeButKey (.next s) (.next (s.withKey c k)) := ⟨s, c, k, rfl, rfl⟩

theorem AlikeButKey.finish_withKey : AlikeButKey (finish s) (finish (s.withKey c k)) := ⟨_, c, k, rfl, rfl⟩

theorem AlikeButKey.raise_withKey (e : ErrorCause) : AlikeButKey (raise e s) (raise e (s.withKey c k)) :=
  ⟨_, c, k, rfl, rfl⟩

theorem readReg_withKey (r : Reg) : readReg (s.withKey c k) r = readReg s r := by cases r <;> rfl

theorem writeReg_withKey (v : Word) (r : Reg) : writeReg (s.withKey c k) v r = (writeReg s v r).withKey c k := by
  cases r <;> rfl

theorem execCvLoad_withKey : AlikeButKey (execCvLoad s) (execCvLoad (s.withKey c k)) := by
  have hread : memReadBlock (s.withKey c k) (s.withKey c k).src = memReadBlock s s.src := rfl
  rw [execCvLoad, execCvLoad, hread]
  split
  · exact ⟨_, c, k, rfl, rfl⟩
  · exact ⟨_, c, k, rfl, rfl⟩

theorem execCvStore_withKey : AlikeButKey (execCvStore s) (execCvStore (s.withKey c k)) := by
  obtain h | ⟨f, h⟩ := admitted_or_refused s.config s.dst 8
  · have h' : Admitted (s.withKey c k).config (s.withKey c k).dst 8 := h
    rw [execCvStore, execCvStore, memWriteBlock_ok h, memWriteBlock_ok h']
    exact ⟨_, c, k, rfl, rfl⟩
  · have h' : RefusedAt (s.withKey c k).config (s.withKey c k).dst 8 f := h
    rw [execCvStore, execCvStore, memWriteBlock_error h, memWriteBlock_error h']
    exact ⟨_, c, k, rfl, rfl⟩

theorem execPadBlk_withKey : AlikeButKey (execPadBlk s) (execPadBlk (s.withKey c k)) := by
  have hlen : (s.withKey c k).len = s.len := rfl
  rw [execPadBlk, execPadBlk, hlen]
  split
  · exact .raise_withKey s c k _
  · exact .finish_withKey _ c k

theorem execUnpadStrict_withKey : AlikeButKey (execUnpadStrict s) (execUnpadStrict (s.withKey c k)) := by
  have hdin : (s.withKey c k).din = s.din := rfl
  rw [execUnpadStrict, execUnpadStrict, hdin]
  split
  · exact .raise_withKey s c k _
  · split
    · exact .finish_withKey (s.setResult _) c k
    · exact .raise_withKey s c k _

/-- Whether the key bytes are read, and which address is refused, does not depend on the key material. -/
theorem loadKey_withKey (i n : Nat) (kbuf kbuf' : Vector Byte 56) :
    (∃ f, loadKey s i n kbuf = .error f ∧ loadKey (s.withKey c k) i n kbuf' = .error f) ∨
      ∃ b b', loadKey s i n kbuf = .ok b ∧ loadKey (s.withKey c k) i n kbuf' = .ok b' := by
  induction n generalizing i kbuf kbuf' with
  | zero => exact .inr ⟨kbuf, kbuf', rfl, rfl⟩
  | succ n ih =>
    have hread : memReadByte (s.withKey c k) ((s.withKey c k).src + BitVec.ofNat 32 i) =
        memReadByte s (s.src + BitVec.ofNat 32 i) := rfl
    rw [loadKey, loadKey, hread]
    split
    · exact .inl ⟨_, rfl, rfl⟩
    · exact ih _ _ _

theorem finish_installKey_withKey (kl : Nat) (b b' : Vector Byte 56) :
    AlikeButKey (finish (installKey kl { s with kbuf := b })) (finish (installKey kl (s.withKey c b'))) := by
  have hkey : installKey kl (s.withKey c b') =
      (installKey kl { s with kbuf := b }).withKey (keySchedule b' kl) (Vector.replicate 56 0) := by
    simp [installKey_eq, State.withKey]
  rw [hkey]
  exact .finish_withKey _ _ _

/-- KEYSCHED overwrites the key material it finds (40_key_schedule.md R107). -/
theorem execKeysched_withKey : AlikeButKey (execKeysched s) (execKeysched (s.withKey c k)) := by
  by_cases hz : s.life = .zeroized
  · have hz' : (s.withKey c k).life = .zeroized := hz
    rw [execKeysched, execKeysched, requireNotZeroized_zeroized hz, requireNotZeroized_zeroized hz']
    exact .raise_withKey s c k _
  · have hz' : (s.withKey c k).life ≠ .zeroized := hz
    have hlen : (s.withKey c k).len = s.len := rfl
    rw [execKeysched, execKeysched, requireNotZeroized_other hz, requireNotZeroized_other hz', hlen]
    split
    · exact ⟨_, CipherState.zero, Vector.replicate 56 0, rfl, rfl⟩
    · obtain ⟨f, h, h'⟩ | ⟨b, b', h, h'⟩ := loadKey_withKey s c k 0 s.len.toNat s.kbuf (s.withKey c k).kbuf
      · rw [h, h']
        exact ⟨_, CipherState.zero, Vector.replicate 56 0, rfl, rfl⟩
      · rw [h, h']
        dsimp only
        exact finish_installKey_withKey s c _ b b'

/-- A command that needs no key does the same whatever the key material. -/
theorem exec_withKey {i : Instr} (hi : i ∉ needsKey) : AlikeButKey (exec i s) (exec i (s.withKey c k)) := by
  cases i with
  | encBlk | decBlk | encBuf | decBuf | weakchk | cbcEncBlk | cbcDecBlk | cbcEncBuf | cbcDecBuf =>
    exact absurd (by decide) hi
  | nop => exact .finish_withKey s c k
  | keysched => exact execKeysched_withKey s c k
  | zeroize => exact ⟨_, CipherState.zero, Vector.replicate 56 0, rfl, rfl⟩
  | cvLoad => exact execCvLoad_withKey s c k
  | cvStore => exact execCvStore_withKey s c k
  | padBlk => exact execPadBlk_withKey s c k
  | unpadStrict => exact execUnpadStrict_withKey s c k
  | unpadLenient => exact .finish_withKey (s.setResult _) c k

/-- Nor does what an abandoned command has written. -/
theorem abandonedMem_withKey {i : Instr} (hi : i ∉ needsKey) (blocks : Nat) :
    abandonedMem i blocks (s.withKey c k) = abandonedMem i blocks s := by
  cases i with
  | encBlk | decBlk | encBuf | decBuf | weakchk | cbcEncBlk | cbcDecBlk | cbcEncBuf | cbcDecBuf =>
    exact absurd (by decide) hi
  | cvStore =>
    rw [abandonedMem, abandonedMem, (exec_withKey s c k hi).memAfter_eq s]
    rfl
  | nop | keysched | zeroize | cvLoad | padBlk | unpadStrict | unpadLenient => rfl

end

/-! ### Words that are no command that needs a key -/

/-- The word encodes none of the nine commands that need a key. -/
def Keyless (v : Word) : Prop := ∀ i ∈ needsKey, v ≠ encode i

theorem Keyless.not_mem {v : Word} (hv : Keyless v) {i : Instr} (h : decode v = .ok i) : i ∉ needsKey :=
  fun hi => hv i hi (eq_encode_of_decode h)

section
variable {v : Word} (hv : Keyless v) (s : State) (c : CipherState) (k : Vector Byte 56)
include hv

theorem runWord_withKey : AlikeButKey (runWord v s) (runWord v (s.withKey c k)) := by
  unfold runWord
  split
  · exact .raise_withKey s c k _
  next h => exact exec_withKey s c k (hv.not_mem h)

theorem resetDuring_withKey (blocks : Nat) : resetDuring v blocks (s.withKey c k) = resetDuring v blocks s := by
  unfold resetDuring
  split
  · rfl
  next h =>
    rw [abandonedMem_withKey s c k (hv.not_mem h)]
    rfl

end

theorem hostWrite_withKey {addr v : Word} {width : Nat} (s : State) (c : CipherState) (k : Vector Byte 56)
    (hv : select s.config addr width = .reg .cmd → Keyless v) :
    AlikeButKey (hostWrite addr width v s) (hostWrite addr width v (s.withKey c k)) := by
  cases hsel : select s.config addr width with
  | refused =>
    rw [hostWrite_refused hsel, hostWrite_refused (s := s.withKey c k) hsel]
    exact .next_withKey { s with reply := .busError } c k
  | outside =>
    rw [hostWrite_outside hsel, hostWrite_outside (s := s.withKey c k) hsel]
    exact .next_withKey { s with reply := .notSelected } c k
  | reg r =>
    by_cases hr : r = .cmd
    · subst hr
      rw [hostWrite_cmd hsel, hostWrite_cmd (s := s.withKey c k) hsel]
      exact (runWord_withKey (hv hsel) s c k).acknowledge
    · rw [hostWrite_reg hsel hr, hostWrite_reg (s := s.withKey c k) hsel hr, writeReg_withKey]
      exact .next_withKey { writeReg s v r with reply := .ack } c k

theorem hostRead_withKey (addr : Word) (width : Nat) (s : State) (c : CipherState) (k : Vector Byte 56) :
    AlikeButKey (hostRead addr width s) (hostRead addr width (s.withKey c k)) := by
  have hsel : (s.withKey c k).config = s.config := rfl
  simp only [hostRead, hsel, readReg_withKey]
  split
  · exact ⟨_, c, k, rfl, rfl⟩
  · exact ⟨_, c, k, rfl, rfl⟩
  · exact ⟨_, c, k, rfl, rfl⟩

/-- An event that runs none of the nine commands does the same whatever the key material. -/
theorem applyEvent_withKey (e : Event) (s : State) (c : CipherState) (k : Vector Byte 56)
    (he : ∀ v, e.commandWord? s.config = some v → Keyless v) :
    AlikeButKey (applyEvent e s) (applyEvent e (s.withKey c k)) := by
  cases e with
  | regWrite addr width v =>
    exact hostWrite_withKey s c k fun hsel => he v (by simp [Event.commandWord?, hsel])
  | regRead addr width => exact hostRead_withKey addr width s c k
  | memWrite addr bs => exact .next_withKey (hostMemWrite addr bs s) c k
  | memRead addr count => exact .next_withKey (hostMemRead addr count s) c k
  | reset => exact ⟨s.resetCore, CipherState.zero, Vector.replicate 56 0, rfl, rfl⟩
  | resetDuring v blocks =>
    rw [applyEvent, applyEvent, resetDuring_withKey (he v rfl)]
    exact .next_withKey (resetDuring v blocks s) _ _

/-- Settles O27: the two runs answer states that differ in key material alone, which no observation shows. -/
theorem keyMaterialShowsOnlyThroughKeyCommands : Obligations.KeyMaterialShowsOnlyThroughKeyCommands := by
  intro s t t' c k e rest he hstep hstep'
  obtain ⟨u, c', k', hu, hu'⟩ := applyEvent_withKey e { s with pending := rest } c k he
  cases hu.symm.trans hstep
  cases hu'.symm.trans hstep'
  exact ⟨rfl, State.observe_setKeyMaterial t c' k'⟩

end Sys2Proof.Machine
end

section
/-! Proofs of the statements on data memory (spec 20_memory.md): the host's own accesses, the 8-byte accesses of the
core, and what the buffer commands store. `exists_loopRule` says once that the four buffer commands are one loop; under
`ReadsBeforeWrites` that loop stores the blocks `outputBlock` computes from the memory it started with, wherever its
output stands. -/

namespace Sys2Proof.Machine

/-! ## The host's own accesses (20_memory.md R50) -/

theorem step_memWrite (s : State) (a : Word) (bs : List Byte) (rest : List Event) :
    step { s with pending := .memWrite a bs :: rest } =
      .next { s with mem := s.mem.writeBytes a 0 bs, pending := rest, reply := .ack } := rfl

theorem step_memRead (s : State) (a : Word) (n : Nat) (rest : List Event) :
    step { s with pending := .memRead a n :: rest } =
      .next { s with pending := rest, reply := .bytes (s.mem.readBytes a n) } := rfl

/-- Bytes that were written are read back, while they do not wrap around onto each other. -/
theorem Memory.readBytes_writeBytes {m : Memory} (h : m.wf = true) (a : Word) (bs : List Byte)
    (hn : bs.length ≤ 2 ^ 32) : (m.writeBytes a 0 bs).readBytes a bs.length = bs := by
  apply List.ext_getElem
  · simp [Memory.readBytes]
  · intro j _ hj
    have hread := Memory.read_writeBytes h a 0 bs (by omega) hj
    simpa [Memory.readBytes, Memory.byteAt] using hread

/-- Settles O21: both steps are the memory operations, of which reading after writing is known. -/
theorem hostMemoryWriteReadsBack : Obligations.HostMemoryWriteReadsBack := by
  intro s a bs rest rest' hm hn
  refine ⟨_, step_memWrite s a bs rest, rfl, fun j hj => ?_, fun x hx => ?_, ?_⟩
  · have hread := Memory.read_writeBytes hm a 0 bs (by omega) hj
    rwa [Nat.zero_add] at hread
  · exact Memory.read_writeBytes_of_ne s.mem a 0 bs (by simpa using hx)
  · rw [step_memRead, Memory.readBytes_writeBytes hm a bs hn]

/-! ## The core's 8-byte accesses (R52, R54) -/

/-- Settles O28: the admission check decides between the two cases, and a block is its bytes, most significant first. -/
theorem blockAccessesAreCheckedAndBigEndian : Obligations.BlockAccessesAreCheckedAndBigEndian := by
  intro s a f v
  refine ⟨fun h => ⟨memReadBlock_error h, memWriteBlock_error h v⟩, fun h => ⟨?_, fun hm => ?_⟩⟩
  · exact ⟨_, memReadBlock_ok h, fun i hi => byteOf_blockOfBytes (s.mem.byteAt a) hi⟩
  · exact ⟨_, memWriteBlock_ok h v, Memory.wf_writeBlock hm a v, fun i hi => Memory.byteAt_writeBlock hm a v hi,
      fun x hx => Memory.read_writeBlock_of_ne s.mem a v hx⟩

/-! ## The buffer commands as one loop (R65) -/

/-- Each buffer command runs, on a keyed core, the loop of one transform and one chaining rule. -/
theorem exists_loopRule {i : Instr} (hi : i ∈ bufferCommands) (c : CipherState) :
    ∃ transform chain out nx, LoopRule transform chain c out nx ∧
      ∀ s, exec i s = requireKeyed s (bufferLoop transform chain (wholeBlocks s.len) 0 s) := by
  simp only [bufferCommands, List.mem_cons, List.not_mem_nil, or_false] at hi
  obtain rfl | rfl | rfl | rfl := hi
  · exact ⟨_, _, _, _, loopRule_encBuf c, fun _ => rfl⟩
  · exact ⟨_, _, _, _, loopRule_decBuf c, fun _ => rfl⟩
  · exact ⟨_, _, _, _, loopRule_cbcEncBuf c, fun _ => rfl⟩
  · exact ⟨_, _, _, _, loopRule_cbcDecBuf c, fun _ => rfl⟩

/-- The bytes of the whole blocks are those a buffer command processes (R65). -/
theorem eight_mul_wholeBlocks (len : Word) : 8 * wholeBlocks len = len.toNat - len.toNat % 8 := by
  rw [wholeBlocks]
  omega

theorem eight_mul_wholeBlocks_le (len : Word) : 8 * wholeBlocks len ≤ 2 ^ 32 := by
  rw [eight_mul_wholeBlocks]
  omega

/-- However a buffer command ends, memory is as some number of its whole blocks left it. -/
theorem exec_buffer_mem {i : Instr} (hi : i ∈ bufferCommands) {s t : State} (h : exec i s = .next t) :
    ∃ out nx, ∃ k ≤ wholeBlocks s.len, t.mem = (afterBlocks out nx s k).1 := by
  obtain ⟨transform, chain, out, nx, hrule, hexec⟩ := exists_loopRule hi s.cipher
  refine ⟨out, nx, ?_⟩
  rw [hexec] at h
  obtain ⟨-, hr⟩ | ⟨e, -, hr⟩ := requireKeyed_cases s (bufferLoop transform chain (wholeBlocks s.len) 0 s)
  · obtain hl | ⟨k, hk, f, hl⟩ := bufferLoop_cases hrule (wholeBlocks s.len)
    · cases (hr.trans hl).symm.trans h
      exact ⟨wholeBlocks s.len, le_rfl, rfl⟩
    · cases (hr.trans hl).symm.trans h
      exact ⟨k, hk.le, rfl⟩
  · cases hr.symm.trans h
    exact ⟨0, Nat.zero_le _, rfl⟩

/-- Settles O25: memory is as some of the whole blocks left it, and those change no byte but their destinations. -/
theorem bufferCommandsStoreOnlyToTheirOutput : Obligations.BufferCommandsStoreOnlyToTheirOutput := by
  intro i hi s t h x hx
  obtain ⟨out, nx, k, hk, hmem⟩ := exec_buffer_mem hi h
  rw [hmem]
  refine read_afterBlocks_of_ne k fun j hj => hx j ?_
  rw [← eight_mul_wholeBlocks]
  omega

/-! ## What a run stores that reads each block before it overwrites it (R67) -/

/-- Block `k` of the input, as memory holds it before the run. -/
def State.inputBlock (s : State) (k : Nat) : Block := s.mem.readBlock (s.src + blockOffset k)

/-- No byte of the first `n` input blocks is stored to by an earlier block. -/
def ReadsBeforeWrites (s : State) (n : Nat) : Prop :=
  ∀ k < n, ∀ i < 8, ∀ j < 8 * k, s.src + BitVec.ofNat 32 (8 * k + i) ≠ s.dst + BitVec.ofNat 32 j

/-- In place every block is read before it is overwritten. -/
theorem readsBeforeWrites_inPlace {s : State} (h : s.dst = s.src) {n : Nat} (hn : 8 * n ≤ 2 ^ 32) :
    ReadsBeforeWrites s n := by
  intro k hk i hi j hj heq
  rw [h] at heq
  exact offset_toNat_ne s.src (by omega) (by omega) (by omega) (congrArg BitVec.toNat heq)

/-- So it is with disjoint buffers. -/
theorem readsBeforeWrites_disjoint {s : State} {n : Nat}
    (h : ∀ i < 8 * n, ∀ j < 8 * n, s.src + BitVec.ofNat 32 i ≠ s.dst + BitVec.ofNat 32 j) : ReadsBeforeWrites s n :=
  fun _ _ _ _ _ _ => h _ (by omega) _ (by omega)

section
variable (out : Block → Block → Block) (nx : Block → Block → Block → Block)

/-- The chaining value before block `k` of the input blocks `inp`, from the start value `cv`. -/
def chainValue (cv : Block) (inp : Nat → Block) : Nat → Block
  | 0 => cv
  | k + 1 => nx (chainValue cv inp k) (inp k) (out (chainValue cv inp k) (inp k))

/-- Block `k` of the output for the input blocks `inp`. -/
def outputBlock (cv : Block) (inp : Nat → Block) (k : Nat) : Block := out (chainValue out nx cv inp k) (inp k)

variable {out nx} {s : State} {n : Nat} (hfresh : ReadsBeforeWrites s n)
include hfresh

/-- The block that the loop reads is the one that stood there before the run. -/
theorem readBlock_afterBlocks {k : Nat} (hk : k < n) :
    (afterBlocks out nx s k).1.readBlock (s.src + blockOffset k) = s.inputBlock k := by
  refine blockOfBytes_congr fun i hi => ?_
  rw [Memory.byteAt, Memory.byteAt, block_address]
  exact read_afterBlocks_of_ne k fun j hj heq => hfresh k hk i hi j hj (BitVec.eq_of_toNat_eq heq)

/-- So the chaining value depends on the start value and the input alone. -/
theorem cv_afterBlocks {k : Nat} (hk : k ≤ n) :
    (afterBlocks out nx s k).2 = chainValue out nx s.cv s.inputBlock k := by
  induction k with
  | zero => rfl
  | succ k ih => rw [afterBlocks, readBlock_afterBlocks hfresh hk, ih (by omega), chainValue]

/-- One more block stores its output block. -/
theorem mem_afterBlocks_succ {k : Nat} (hk : k < n) :
    (afterBlocks out nx s (k + 1)).1 = (afterBlocks out nx s k).1.writeBlock (s.dst + blockOffset k)
      (outputBlock out nx s.cv s.inputBlock k) := by
  rw [afterBlocks, readBlock_afterBlocks hfresh hk, cv_afterBlocks hfresh hk.le, outputBlock]

/-- Every byte stored is that of its output block. -/
theorem read_output_afterBlocks (hm : s.mem.wf = true) (hn : 8 * n ≤ 2 ^ 32) {k : Nat} (hk : k ≤ n) {q : Nat}
    (hq : q < 8 * k) : Memory.read (afterBlocks out nx s k).1 (s.dst + BitVec.ofNat 32 q).toNat =
      byteOf (outputBlock out nx s.cv s.inputBlock (q / 8)) (q % 8) := by
  induction k with
  | zero => omega
  | succ k ih =>
    rw [mem_afterBlocks_succ hfresh hk]
    by_cases hlt : q < 8 * k
    · rw [Memory.read_writeBlock_of_ne, ih (by omega) hlt]
      intro j hj
      rw [block_address]
      exact offset_toNat_ne s.dst (by omega) (by omega) (by omega)
    · obtain ⟨i, hi, rfl⟩ : ∃ i < 8, q = 8 * k + i := ⟨q - 8 * k, by omega, by omega⟩
      have hbyte := Memory.byteAt_writeBlock (wf_afterBlocks (out := out) (nx := nx) hm k) (s.dst + blockOffset k)
        (outputBlock out nx s.cv s.inputBlock k) hi
      rw [Memory.byteAt, block_address] at hbyte
      rw [hbyte, show (8 * k + i) / 8 = k by omega, show (8 * k + i) % 8 = i by omega]

end

theorem State.cv_atBlock (s : State) (out : Block → Block → Block) (nx : Block → Block → Block → Block) (k : Nat) :
    (s.atBlock out nx k).cv = (afterBlocks out nx s k).2 := State.cv_setCv _ _

/-- The bytes, the chaining value and the count a buffer command leaves that reads every block before it overwrites it,
in terms of the start value and the input alone: DST and the memory beside the input do not matter. -/
theorem exec_buffer_output {i : Instr} (hi : i ∈ bufferCommands) (c : CipherState) :
    ∃ out nx, ∀ s t : State, s.cipher = c → s.life = .keyed → s.mem.wf = true →
      (∀ j < wholeBlocks s.len, BlockAdmitted s j) → ReadsBeforeWrites s (wholeBlocks s.len) → exec i s = .next t →
      (∀ q < 8 * wholeBlocks s.len, Memory.read t.mem (s.dst + BitVec.ofNat 32 q).toNat =
        byteOf (outputBlock out nx s.cv s.inputBlock (q / 8)) (q % 8)) ∧
      t.cv = chainValue out nx s.cv s.inputBlock (wholeBlocks s.len) ∧ t.result = blockOffset (wholeBlocks s.len) := by
  obtain ⟨transform, chain, out, nx, hrule, hexec⟩ := exists_loopRule hi c
  refine ⟨out, nx, ?_⟩
  rintro s t rfl hlife hm hadm hfresh h
  rw [hexec, requireKeyed_keyed hlife, bufferLoop_done hrule hadm] at h
  cases h
  exact ⟨fun q hq => read_output_afterBlocks hfresh hm (eight_mul_wholeBlocks_le s.len) le_rfl hq,
    (State.cv_atBlock s out nx _).trans (cv_afterBlocks hfresh le_rfl), rfl⟩

/-- Settles O50: in place and with disjoint buffers alike every block is read before it is overwritten, so both runs
leave what the same input and start value give. -/
theorem inPlaceEqualsDisjoint : Obligations.InPlaceEqualsDisjoint := by
  intro i hi s t t' d hm hlife hdst hadm hdisj ht ht'
  rw [← eight_mul_wholeBlocks] at hdisj ⊢
  obtain ⟨out, nx, houtput⟩ := exec_buffer_output hi s.cipher
  obtain ⟨hbytes, hcv, hresult⟩ := houtput s t rfl hlife hm (fun j hj => (hadm j hj).1)
    (readsBeforeWrites_inPlace hdst (eight_mul_wholeBlocks_le s.len)) ht
  obtain ⟨hbytes', hcv', hresult'⟩ := houtput { s with dst := d } t' rfl hlife hm (fun j hj => (hadm j hj).2)
    (readsBeforeWrites_disjoint hdisj) ht'
  rw [hdst] at hbytes
  exact ⟨fun q hq => (hbytes q hq).trans (hbytes' q hq).symm, hcv.trans hcv'.symm, hresult.trans hresult'.symm⟩

end Sys2Proof.Machine
end

section
/-! Proofs of the statements on command words and on commands in general (spec 30_encoding.md). The legal words are
those that decode (`exists_decode_iff_wf`); no command reads the `STATUS.ERR` it overwrites (`exec_setErr`); a
pseudo-instruction is a run of register writes and its command (`run_expand`); and the table of R72, read by field, says
what each command writes before it ends (`writesAndEnds_exec`). -/

namespace Sys2Proof

/-! ## The decoder and the encoder (30_encoding.md R70, R73, R74) -/

/-- The opcode map reads the operation code of each command as that command. -/
theorem Instr.ofOpcode_opcode (i : Instr) : Instr.ofOpcode i.opcode = some i := by cases i <;> rfl

/-- The opcode map has no hole up to its last code (R73). -/
theorem Instr.exists_ofOpcode : ∀ b : Byte, b ≤ lastOpcode → (Instr.ofOpcode b).isSome := by decide

theorem decode_encode (i : Instr) : decode (encode i) = .ok i := by
  rw [decode_ok_iff, encode, CommandWord.ofWord_toWord]
  exact ⟨rfl, i.ofOpcode_opcode⟩

/-- Settles O10: `decode_encode` one way, `eq_encode_of_decode` the other. -/
theorem decodeAnswersExactlyTheEncoding : Obligations.DecodeAnswersExactlyTheEncoding := by
  intro v i
  constructor
  · exact eq_encode_of_decode
  · rintro rfl
    exact decode_encode i

/-- Settles O11: each word evaluates. -/
theorem wordsOfTheOpcodeMapDecode : Obligations.WordsOfTheOpcodeMapDecode :=
  ⟨rfl, rfl, rfl, rfl, rfl, rfl, rfl, rfl⟩

/-- A word is a command's exactly where its two fields are legal (R74). -/
theorem exists_decode_iff_wf (v : Word) : (∃ i, decode v = .ok i) ↔ (CommandWord.ofWord v).wf = true := by
  constructor
  · rintro ⟨i, h⟩
    rw [eq_encode_of_decode h]
    exact encode_wf i
  · intro h
    obtain ⟨hrsvd, hopc⟩ : (CommandWord.ofWord v).rsvd = 0#24 ∧ (CommandWord.ofWord v).opc ≤ lastOpcode := by
      simpa [CommandWord.wf] using h
    obtain ⟨i, hi⟩ := Option.isSome_iff_exists.1 (Instr.exists_ofOpcode _ hopc)
    exact ⟨i, (decode_ok_iff v i).2 ⟨hrsvd, hi⟩⟩

/-- The two kinds of illegal word, as R74 writes them. -/
theorem CommandWord.wf_ofWord_iff (v : Word) :
    (CommandWord.ofWord v).wf = true ↔ ¬ (v.extractLsb' 8 24 ≠ 0 ∨ 0x11 ≤ (v.extractLsb' 0 8).toNat) := by
  simp [CommandWord.wf, CommandWord.ofWord, lastOpcode, BitVec.le_def, Nat.lt_succ_iff]

/-! ## What a statement of the assembly language is (R78) -/

/-- The register and the value of a `wr` statement. -/
def Asm.write? : Asm → Option (Reg × Word)
  | .wr r v => some (r, v)
  | .rd _ | .cmd _ | .mem _ _ => none

/-- The command of a `cmd` statement. -/
def Asm.command? : Asm → Option Instr
  | .cmd i => some i
  | .wr _ _ | .rd _ | .mem _ _ => none

end Sys2Proof

namespace Sys2Proof.Machine

/-! ## Illegal words and the life-cycle checks (R74, R76) -/

theorem runWord_of_decode {v : Word} {i : Instr} (h : decode v = .ok i) (s : State) : runWord v s = exec i s := by
  rw [runWord, h]

theorem runWord_of_illegal {v : Word} (h : (CommandWord.ofWord v).wf ≠ true) (s : State) :
    runWord v s = raise .illegalCommand s := by
  cases hd : decode v with
  | error _ => rw [runWord, hd]
  | ok i => exact absurd ((exists_decode_iff_wf v).1 ⟨i, hd⟩) h

/-- Settles O9: the legal words are those that decode. -/
theorem illegalWordsRaiseIllegalCommand : Obligations.IllegalWordsRaiseIllegalCommand := by
  intro v s
  rw [← CommandWord.wf_ofWord_iff]
  constructor
  · intro hill
    exact runWord_of_illegal (fun hwf => (CommandWord.wf_ofWord_iff v).1 hwf hill) s
  · intro hwf
    obtain ⟨i, hi⟩ := (exists_decode_iff_wf v).2 hwf
    exact ⟨i, runWord_of_decode hi s⟩

/-- Each of the nine commands that need a key makes the life-cycle check before anything else. -/
theorem exec_eq_requireKeyed {i : Instr} (hi : i ∈ needsKey) (s : State) : ∃ run, exec i s = requireKeyed s run := by
  cases i with
  | encBlk | decBlk | encBuf | decBuf | weakchk | cbcEncBlk | cbcDecBlk | cbcEncBuf | cbcDecBuf => exact ⟨_, rfl⟩
  | nop | keysched | zeroize | cvLoad | cvStore | padBlk | unpadStrict | unpadLenient => exact absurd hi (by decide)

/-- Settles O12: the nine commands by `exec_eq_requireKeyed`, KEYSCHED by its own check. -/
theorem lifeCycleChecksComeFirst : Obligations.LifeCycleChecksComeFirst := by
  intro s
  refine ⟨fun hz i hi => ?_, fun hu i hi => ?_⟩
  · obtain rfl | hi := List.mem_cons.1 hi
    · exact requireNotZeroized_zeroized hz _
    · obtain ⟨run, hrun⟩ := exec_eq_requireKeyed hi s
      exact hrun.trans (requireKeyed_zeroized hz run)
  · obtain ⟨run, hrun⟩ := exec_eq_requireKeyed hi s
    exact hrun.trans (requireKeyed_unkeyed hu run)

/-! ## How a step and a command word end (R77) -/

/-- Settles O5: without an event the state is held, and every event answers a next state. -/
theorem everyStepAnswersANextState : Obligations.EveryStepAnswersANextState := by
  intro s
  cases hp : s.pending with
  | nil => exact ⟨s, step_nil hp⟩
  | cons e rest =>
    obtain ⟨t, ht, -⟩ := applyEvent_effect e { s with pending := rest }
    exact ⟨t, (step_cons hp).trans ht⟩

/-- `STATUS.ERR` set to `b`, whatever it was. -/
def State.setErr (s : State) (b : Byte) : State := { s with err := b }

theorem afterBlocks_setErr (out : Block → Block → Block) (nx : Block → Block → Block → Block) (s : State) (b : Byte)
    (k : Nat) : afterBlocks out nx (s.setErr b) k = afterBlocks out nx s k := by
  induction k with
  | zero => rfl
  | succ k ih =>
    rw [afterBlocks, afterBlocks, ih]
    rfl

theorem State.atBlock_setErr (out : Block → Block → Block) (nx : Block → Block → Block → Block) (s : State) (b : Byte)
    (k : Nat) : (s.setErr b).atBlock out nx k = (s.atBlock out nx k).setErr b := by
  rw [State.atBlock, afterBlocks_setErr]
  rfl

/-- The buffer loop overwrites the `STATUS.ERR` it finds, at whichever block it ends. -/
theorem bufferLoop_setErr {transform : State → Block → Block} {chain : State → Block → Block → State}
    {out : Block → Block → Block} {nx : Block → Block → Block → Block} {s : State}
    (hr : LoopRule transform chain s.cipher out nx) (b : Byte) (n : Nat) :
    bufferLoop transform chain n 0 (s.setErr b) = bufferLoop transform chain n 0 s := by
  obtain h | ⟨k, hk, f, h⟩ := blocks_admitted_or s n
  · rw [bufferLoop_done hr h, bufferLoop_done (s := s.setErr b) hr h, State.atBlock_setErr]
    rfl
  · rw [bufferLoop_refused hr hk h, bufferLoop_refused (s := s.setErr b) hr hk h, State.atBlock_setErr]
    rfl

theorem requireKeyed_setErr {s : State} {b : Byte} {r r' : Result} (h : r = r') :
    requireKeyed (s.setErr b) r = requireKeyed s r' := by
  subst h
  rfl

theorem execCvStore_setErr (s : State) (b : Byte) : execCvStore (s.setErr b) = execCvStore s := by
  obtain h | ⟨f, h⟩ := admitted_or_refused s.config s.dst 8
  · have h' : Admitted (s.setErr b).config (s.setErr b).dst 8 := h
    rw [execCvStore, execCvStore, memWriteBlock_ok h, memWriteBlock_ok h']
    rfl
  · have h' : RefusedAt (s.setErr b).config (s.setErr b).dst 8 f := h
    rw [execCvStore, execCvStore, memWriteBlock_error h, memWriteBlock_error h']
    rfl

theorem loadKey_setErr (s : State) (b : Byte) (i n : Nat) (kbuf : Vector Byte 56) :
    loadKey (s.setErr b) i n kbuf = loadKey s i n kbuf := by
  induction n generalizing i kbuf with
  | zero => rfl
  | succ n ih =>
    rw [loadKey, loadKey]
    simp only [ih]
    rfl

theorem execKeysched_setErr (s : State) (b : Byte) : execKeysched (s.setErr b) = execKeysched s := by
  rw [execKeysched, execKeysched, loadKey_setErr]
  rfl

theorem exec_buffer_setErr {i : Instr} (hi : i ∈ bufferCommands) (s : State) (b : Byte) :
    exec i (s.setErr b) = exec i s := by
  obtain ⟨transform, chain, out, nx, hrule, hexec⟩ := exists_loopRule hi s.cipher
  rw [hexec, hexec]
  exact requireKeyed_setErr (bufferLoop_setErr hrule b _)

/-- No command reads `STATUS.ERR`, and every command overwrites it. -/
theorem exec_setErr (i : Instr) (s : State) (b : Byte) : exec i (s.setErr b) = exec i s := by
  cases i with
  | nop | encBlk | decBlk | weakchk | zeroize | cvLoad | cbcEncBlk | cbcDecBlk | padBlk | unpadStrict
  | unpadLenient => rfl
  | keysched => exact execKeysched_setErr s b
  | cvStore => exact execCvStore_setErr s b
  | encBuf | decBuf | cbcEncBuf | cbcDecBuf => exact exec_buffer_setErr (by decide) s b

theorem runWord_setErr (v : Word) (s : State) (b : Byte) : runWord v (s.setErr b) = runWord v s := by
  unfold runWord
  split
  · rfl
  · exact exec_setErr _ s b

/-- A command ends in one of the two ways and not in the other, since no error has the code 0. -/
theorem Ended.xor {u t : State} (h : Ended u t) :
    Xor (t.err = 0 ∧ t.sticky = u.sticky) (∃ e : ErrorCause, t.err = e.code ∧ t.sticky = true) := by
  cases h with
  | well => exact .inl ⟨⟨rfl, rfl⟩, fun ⟨e, he, _⟩ => e.code_ne_zero he.symm⟩
  | error e => exact .inr ⟨⟨e, rfl, rfl⟩, fun ⟨he, _⟩ => e.code_ne_zero he⟩

/-- Settles O7: `endOf_runWord` says how the word ends, `runWord_setErr` that the old `STATUS.ERR` does not matter. -/
theorem everyCommandEndsByFinishOrRaise : Obligations.EveryCommandEndsByFinishOrRaise := by
  intro v s
  obtain ⟨i, u, t, hrun, hprep, hend⟩ := endOf_runWord v s
  refine ⟨t, hrun, ?_, fun b => (runWord_setErr v s b).trans hrun⟩
  rw [← hprep.sticky]
  exact hend.xor

/-! ## Pseudo-instructions (R78, R79) -/

/-- The register writes a pseudo-instruction expands to. -/
def operandWrites (p : Pseudo) : List (Reg × Word) := (expand p).filterMap Asm.write?

/-- The command in which a pseudo-instruction ends, if it ends in one. -/
def lastCommand? (p : Pseudo) : Option Instr := (expand p).getLast?.bind Asm.command?

/-- The statements of a list of register writes. -/
def writeStatements (ws : List (Reg × Word)) : List Asm := ws.map fun w => .wr w.1 w.2

/-- What a list of register writes leaves, each acknowledged to the host. -/
def hostWrites (s : State) (ws : List (Reg × Word)) : State :=
  ws.foldl (fun s w => { writeReg s w.2 w.1 with reply := .ack }) s

/-- A pseudo-instruction that ends in a command writes operand registers before it, and does nothing else (R79). -/
theorem expand_eq {p : Pseudo} {i : Instr} (h : lastCommand? p = some i) :
    expand p = writeStatements (operandWrites p) ++ [.cmd i] ∧ ∀ w ∈ operandWrites p, w.1 ≠ .cmd := by
  cases p with
  | setcv | getcv | setdin | getdout | check => cases h
  | _ =>
    cases h
    exact ⟨rfl, by simp [operandWrites, expand, expandSetdin, expandBuf, Asm.write?]⟩

theorem writeReg_config (s : State) (v : Word) (r : Reg) : (writeReg s v r).config = s.config := by cases r <;> rfl

theorem hostWrites_config (s : State) (ws : List (Reg × Word)) : (hostWrites s ws).config = s.config := by
  induction ws generalizing s with
  | nil => rfl
  | cons w ws ih => exact (ih _).trans (writeReg_config s w.2 w.1)

/-- A run over the statements of register writes goes on from what the writes leave. -/
theorem run_writeStatements (ws : List (Reg × Word)) (hcmd : ∀ w ∈ ws, w.1 ≠ .cmd) {s : State} {c : Config}
    (hc : s.config = c) (es : List Event) (n : Nat) :
    Sys2Proof.core.run (ws.length + n) { s with pending := program c (writeStatements ws) ++ es } =
      Sys2Proof.core.run n { hostWrites s ws with pending := es } := by
  induction ws generalizing s with
  | nil =>
    rw [List.length_nil, Nat.zero_add]
    rfl
  | cons w ws ih =>
    subst hc
    obtain ⟨hw, hws⟩ := List.forall_mem_cons.1 hcmd
    have hstep := step_writeReg s w.2 (program s.config (writeStatements ws) ++ es) hw
    have hrest := ih hws (s := { writeReg s w.2 w.1 with reply := .ack }) (writeReg_config s w.2 w.1)
    rw [List.length_cons, Nat.succ_add]
    exact (run_succ_of_next hstep _).trans hrest

/-- A run of one step is that step. -/
theorem run_one (s : State) : Sys2Proof.core.run 1 s = step s := by
  obtain ⟨t, ht⟩ := everyStepAnswersANextState s
  rw [ht]
  exact run_succ_of_next ht 0

/-- The statement `cmd` runs its command. -/
theorem step_cmd {s : State} {c : Config} (hc : s.config = c) (i : Instr) (rest : List Event) :
    step { s with pending := program c [.cmd i] ++ rest } = acknowledge (exec i { s with pending := rest }) := by
  subst hc
  rw [← runWord_of_decode (decode_encode i)]
  exact step_writeCmd s (encode i) rest

/-- The run of a pseudo-instruction that ends in a command: its operands are written, and the command runs. -/
theorem run_expand {p : Pseudo} {i : Instr} (h : lastCommand? p = some i) (s : State) (rest : List Event) :
    Sys2Proof.core.run (expand p).length { s with pending := program s.config (expand p) ++ rest } =
      acknowledge (exec i { hostWrites s (operandWrites p) with pending := rest }) := by
  obtain ⟨hexpand, hcmd⟩ := expand_eq h
  have hwrites := run_writeStatements (operandWrites p) hcmd (s := s) rfl (program s.config [.cmd i] ++ rest) 1
  rw [run_one, step_cmd (hostWrites_config s _)] at hwrites
  rw [hexpand, program, List.map_append, List.append_assoc, List.length_append, writeStatements, List.length_map]
  exact hwrites

/-- Settles O22: every pseudo-instruction of the list ends in its command, and its operands are the registers it
writes. -/
theorem pseudoInstructionsRunTheirCommand : Obligations.PseudoInstructionsRunTheirCommand := by
  intro s a d n v rest q hq
  simp only [List.mem_cons, List.not_mem_nil, or_false] at hq
  obtain rfl | rfl | rfl | rfl | rfl | rfl | rfl | rfl | rfl | rfl | rfl | rfl | rfl | rfl := hq
  all_goals exact run_expand rfl s rest

/-! ## What each command writes (R72) -/

/-- The fields of the state that the end of a command does not report in: all but ERR, STICKY and FADDR. -/
inductive StateField where
  | life | cipher | kbuf | src | dst | len | result | dinHi | dinLo | doutHi | doutLo | cvHi | cvLo | weak | mem
  | config | pending | reply

/-- The field holds in `t` what it holds in `s`. -/
def StateField.Kept (f : StateField) (s t : State) : Prop :=
  match f with
  | .life => t.life = s.life
  | .cipher => t.cipher = s.cipher
  | .kbuf => t.kbuf = s.kbuf
  | .src => t.src = s.src
  | .dst => t.dst = s.dst
  | .len => t.len = s.len
  | .result => t.result = s.result
  | .dinHi => t.dinHi = s.dinHi
  | .dinLo => t.dinLo = s.dinLo
  | .doutHi => t.doutHi = s.doutHi
  | .doutLo => t.doutLo = s.doutLo
  | .cvHi => t.cvHi = s.cvHi
  | .cvLo => t.cvLo = s.cvLo
  | .weak => t.weak = s.weak
  | .mem => t.mem = s.mem
  | .config => t.config = s.config
  | .pending => t.pending = s.pending
  | .reply => t.reply = s.reply

/-- The table of R72, read by field: the commands that may write it. -/
def StateField.writers : StateField → List Instr
  | .life | .cipher | .kbuf => [.keysched, .zeroize]
  | .weak => [.keysched, .zeroize, .weakchk]
  | .dinHi | .dinLo => [.zeroize]
  | .doutHi | .doutLo => [.encBlk, .decBlk, .cbcEncBlk, .cbcDecBlk, .padBlk, .zeroize]
  | .cvHi | .cvLo => [.cvLoad, .cbcEncBlk, .cbcDecBlk, .cbcEncBuf, .cbcDecBuf, .zeroize]
  | .result => [.encBuf, .decBuf, .cbcEncBuf, .cbcDecBuf, .weakchk, .zeroize, .padBlk, .unpadStrict, .unpadLenient]
  | .mem => [.encBuf, .decBuf, .cbcEncBuf, .cbcDecBuf, .cvStore]
  | .src | .dst | .len | .config | .pending | .reply => []

/-- The commands that access data memory, and so can meet a bus error (R72). -/
def memoryCommands : List Instr := [.keysched, .encBuf, .decBuf, .cbcEncBuf, .cbcDecBuf, .cvLoad, .cvStore]

theorem StateField.Kept.trans {f : StateField} {s t u : State} (h : f.Kept s t) (h' : f.Kept t u) : f.Kept s u := by
  cases f <;> exact Eq.trans h' h

theorem StateField.kept_refl (f : StateField) (s : State) : f.Kept s s := by cases f <;> rfl

/-- What the command `i`, begun in `s`, leaves before its end is reported. -/
structure WritesOf (i : Instr) (s u : State) : Prop where
  kept   : ∀ f : StateField, i ∉ f.writers → f.Kept s u
  sticky : u.sticky = s.sticky
  faddr  : u.faddr = s.faddr

theorem WritesOf.refl (i : Instr) (s : State) : WritesOf i s s := ⟨fun f _ => f.kept_refl s, rfl, rfl⟩

theorem WritesOf.trans {i : Instr} {s u w : State} (h : WritesOf i s u) (h' : WritesOf i u w) : WritesOf i s w :=
  ⟨fun f hf => (h.kept f hf).trans (h'.kept f hf), h'.sticky.trans h.sticky, h'.faddr.trans h.faddr⟩

/-! ### The updates a command is made of -/

section
variable {i : Instr} (s : State)

theorem writesOf_setDout (hi : i ∈ StateField.doutHi.writers) (b : Block) : WritesOf i s (s.setDout b) := by
  refine ⟨fun f hf => ?_, rfl, rfl⟩
  cases f with
  | doutHi | doutLo => exact absurd hi hf
  | _ => rfl

theorem writesOf_setCv (hi : i ∈ StateField.cvHi.writers) (b : Block) : WritesOf i s (s.setCv b) := by
  refine ⟨fun f hf => ?_, rfl, rfl⟩
  cases f with
  | cvHi | cvLo => exact absurd hi hf
  | _ => rfl

theorem writesOf_setResult (hi : i ∈ StateField.result.writers) (v : Word) : WritesOf i s (s.setResult v) := by
  refine ⟨fun f hf => ?_, rfl, rfl⟩
  cases f with
  | result => exact absurd hi hf
  | _ => rfl

theorem writesOf_setWeak (hi : i ∈ StateField.weak.writers) (w : Bool) : WritesOf i s (s.setWeak w) := by
  refine ⟨fun f hf => ?_, rfl, rfl⟩
  cases f with
  | weak => exact absurd hi hf
  | _ => rfl

theorem writesOf_setMem (hi : i ∈ StateField.mem.writers) (m : Memory) : WritesOf i s { s with mem := m } := by
  refine ⟨fun f hf => ?_, rfl, rfl⟩
  cases f with
  | mem => exact absurd hi hf
  | _ => rfl

/-- KEYSCHED, whether it installs a key or fails, sets the boxes, the key buffer, the life-cycle state and WEAK. -/
theorem writesOf_keysched (l : LifeCycle) (c : CipherState) (k : Vector Byte 56) (w : Bool) :
    WritesOf .keysched s { s with life := l, cipher := c, kbuf := k, weak := w } := by
  refine ⟨fun f hf => ?_, rfl, rfl⟩
  cases f with
  | life | cipher | kbuf | weak => exact absurd (by decide) hf
  | _ => rfl

theorem writesOf_zeroized : WritesOf .zeroize s s.zeroized := by
  refine ⟨fun f hf => ?_, rfl, rfl⟩
  cases f with
  | src | dst | len | mem | config | pending | reply => rfl
  | _ => exact absurd (by decide) hf

end

/-! ### How a command ends, and what it has written -/

/-- The ends of the command `i`: well, with an error that is no bus error, or, where it accesses memory, with a bus
error and its address. -/
inductive EndedBy (i : Instr) (u : State) : State → Prop where
  | well : EndedBy i u u.clearErr
  | error {e : ErrorCause} (he : e ≠ .busError) : EndedBy i u (u.reportError e)
  | busError (hi : i ∈ memoryCommands) (f : Word) :
      EndedBy i u (State.reportError { u with faddr := f } .busError)

/-- A result of the command `i`, begun in `s`: what it may write is written, and its end is reported. -/
def WritesAndEnds (i : Instr) (s : State) (r : Result) : Prop :=
  ∃ u t, r = .next t ∧ WritesOf i s u ∧ EndedBy i u t

section
variable {i : Instr} {s u : State}

theorem WritesOf.finish (h : WritesOf i s u) : WritesAndEnds i s (finish u) := ⟨u, _, rfl, h, .well⟩

theorem WritesOf.raise (h : WritesOf i s u) {e : ErrorCause} (he : e ≠ .busError) : WritesAndEnds i s (raise e u) :=
  ⟨u, _, rfl, h, .error he⟩

theorem WritesOf.raiseBusError (h : WritesOf i s u) (hi : i ∈ memoryCommands) (f : Word) :
    WritesAndEnds i s (raiseBusError f u) := ⟨u, _, rfl, h, .busError hi f⟩

theorem writesAndEnds_requireKeyed {r : Result} (h : WritesAndEnds i s r) : WritesAndEnds i s (requireKeyed s r) := by
  obtain ⟨-, hr⟩ | ⟨e, he, hr⟩ := requireKeyed_cases s r
  · rwa [hr]
  · rw [hr]
    refine (WritesOf.refl i s).raise ?_
    rintro rfl
    simp at he

end

/-- A loop that never changes the chaining value leaves it as it found it (43_cbc.md R179). -/
theorem afterBlocks_cv_of_unchained (out : Block → Block → Block) (s : State) (k : Nat) :
    (afterBlocks out (fun cv _ _ => cv) s k).2 = s.cv := by
  induction k with
  | zero => rfl
  | succ k ih => exact ih

section
variable {i : Instr} (hi : i ∈ bufferCommands) {s : State} {out : Block → Block → Block}
  {nx : Block → Block → Block → Block} (hcv : i ∈ StateField.cvHi.writers ∨ nx = fun cv _ _ => cv)
include hi hcv

/-- The blocks of a buffer command are stored in memory and chained through CV; those of a raw one leave CV alone. -/
theorem writesOf_atBlock (k : Nat) (v : Word) : WritesOf i s ((s.atBlock out nx k).setResult v) := by
  have hmem : WritesOf i s { s with mem := (afterBlocks out nx s k).1 } :=
    writesOf_setMem s ((by decide : bufferCommands ⊆ StateField.mem.writers) hi) _
  have hblock : WritesOf i s (s.atBlock out nx k) := by
    obtain hcv | rfl := hcv
    · exact hmem.trans (writesOf_setCv _ hcv _)
    · rw [State.atBlock, afterBlocks_cv_of_unchained]
      exact (State.setCv_cv { s with mem := (afterBlocks out (fun cv _ _ => cv) s k).1 }).symm ▸ hmem
  exact hblock.trans (writesOf_setResult _ ((by decide : bufferCommands ⊆ StateField.result.writers) hi) v)

theorem writesAndEnds_bufferLoop {transform : State → Block → Block} {chain : State → Block → Block → State}
    (hr : LoopRule transform chain s.cipher out nx) (n : Nat) :
    WritesAndEnds i s (bufferLoop transform chain n 0 s) := by
  obtain h | ⟨k, -, f, h⟩ := bufferLoop_cases hr n
  · exact h ▸ (writesOf_atBlock hi hcv n _).finish
  · exact h ▸ (writesOf_atBlock hi hcv k _).raiseBusError ((by decide : bufferCommands ⊆ memoryCommands) hi) f

end

theorem writesAndEnds_execCvLoad (s : State) : WritesAndEnds .cvLoad s (execCvLoad s) := by
  unfold execCvLoad
  split
  · exact (WritesOf.refl _ s).raiseBusError (by decide) _
  · exact (writesOf_setCv s (by decide) _).finish

theorem writesAndEnds_execCvStore (s : State) : WritesAndEnds .cvStore s (execCvStore s) := by
  unfold execCvStore
  split
  · exact (WritesOf.refl _ s).raiseBusError (by decide) _
  next h =>
    rw [memWriteBlock_eq h]
    exact (writesOf_setMem s (by decide) _).finish

theorem writesAndEnds_execKeysched (s : State) : WritesAndEnds .keysched s (execKeysched s) := by
  by_cases hz : s.life = .zeroized
  · rw [execKeysched, requireNotZeroized_zeroized hz]
    exact (WritesOf.refl _ s).raise (by decide)
  · rw [execKeysched, requireNotZeroized_other hz]
    split
    · exact (writesOf_keysched s _ _ _ _).raise (by decide)
    · split
      · exact (writesOf_keysched s _ _ _ _).raiseBusError (by decide) _
      · rw [installKey_eq]
        exact (writesOf_keysched s _ _ _ _).finish

theorem writesAndEnds_execPadBlk (s : State) : WritesAndEnds .padBlk s (execPadBlk s) := by
  unfold execPadBlk
  split
  · exact (WritesOf.refl _ s).raise (by decide)
  · exact ((writesOf_setDout s (by decide) _).trans (writesOf_setResult _ (by decide) _)).finish

theorem writesAndEnds_execUnpadStrict (s : State) : WritesAndEnds .unpadStrict s (execUnpadStrict s) := by
  unfold execUnpadStrict
  split
  · exact (WritesOf.refl _ s).raise (by decide)
  · split
    · exact (writesOf_setResult s (by decide) _).finish
    · exact (WritesOf.refl _ s).raise (by decide)

/-- Every command writes what the table of R72 lists for it, and ends. -/
theorem writesAndEnds_exec (i : Instr) (s : State) : WritesAndEnds i s (exec i s) := by
  cases i with
  | nop => exact (WritesOf.refl _ s).finish
  | keysched => exact writesAndEnds_execKeysched s
  | encBlk | decBlk => exact writesAndEnds_requireKeyed (writesOf_setDout s (by decide) _).finish
  | cbcEncBlk | cbcDecBlk =>
    exact writesAndEnds_requireKeyed
      ((writesOf_setDout s (by decide) _).trans (writesOf_setCv _ (by decide) _)).finish
  | encBuf =>
    exact writesAndEnds_requireKeyed
      (writesAndEnds_bufferLoop (by decide) (.inr rfl) (loopRule_encBuf s.cipher) _)
  | decBuf =>
    exact writesAndEnds_requireKeyed
      (writesAndEnds_bufferLoop (by decide) (.inr rfl) (loopRule_decBuf s.cipher) _)
  | cbcEncBuf =>
    exact writesAndEnds_requireKeyed
      (writesAndEnds_bufferLoop (by decide) (.inl (by decide)) (loopRule_cbcEncBuf s.cipher) _)
  | cbcDecBuf =>
    exact writesAndEnds_requireKeyed
      (writesAndEnds_bufferLoop (by decide) (.inl (by decide)) (loopRule_cbcDecBuf s.cipher) _)
  | weakchk =>
    exact writesAndEnds_requireKeyed
      ((writesOf_setWeak s (by decide) _).trans (writesOf_setResult _ (by decide) _)).finish
  | zeroize => exact (writesOf_zeroized s).finish
  | cvLoad => exact writesAndEnds_execCvLoad s
  | cvStore => exact writesAndEnds_execCvStore s
  | padBlk => exact writesAndEnds_execPadBlk s
  | unpadStrict => exact writesAndEnds_execUnpadStrict s
  | unpadLenient => exact (writesOf_setResult s (by decide) _).finish

/-! ### What the end leaves -/

theorem ErrorCause.code_ne_of_ne_busError {e : ErrorCause} (he : e ≠ .busError) : e.code ≠ 0x07 := by
  cases e with
  | busError => exact absurd rfl he
  | _ => decide

section
variable {i : Instr} {u t : State} (h : EndedBy i u t)
include h

theorem EndedBy.kept (f : StateField) : f.Kept u t := by cases h <;> cases f <;> rfl

theorem EndedBy.sticky_of_err_eq (he : t.err = 0) : t.sticky = u.sticky := by
  cases h with
  | well => rfl
  | @error e => exact absurd he e.code_ne_zero
  | busError => exact absurd he (ErrorCause.code_ne_zero .busError)

theorem EndedBy.faddr_of_err_ne (he : t.err ≠ 0x07) : t.faddr = u.faddr := by
  cases h with
  | well | error => rfl
  | busError => exact absurd rfl he

theorem EndedBy.err_ne_busError (hi : i ∉ memoryCommands) : t.err ≠ 0x07 := by
  cases h with
  | well => exact (by decide : (0 : Byte) ≠ 0x07)
  | error he => exact ErrorCause.code_ne_of_ne_busError he
  | busError hi' => exact absurd hi' hi

end

/-- How a command that answers `t` got there. -/
theorem exists_writesOf {i : Instr} {s t : State} (h : exec i s = .next t) : ∃ u, WritesOf i s u ∧ EndedBy i u t := by
  obtain ⟨u, t', hrun, hwrites, hend⟩ := writesAndEnds_exec i s
  cases hrun.symm.trans h
  exact ⟨u, hwrites, hend⟩

/-- Settles O23: the field clauses read `StateField.writers`, those on STICKY, FADDR and ERR the end of the command. -/
theorem commandsWriteOnlyWhatTheTableLists : Obligations.CommandsWriteOnlyWhatTheTableLists := by
  intro i s t hexec
  obtain ⟨u, hwrites, hend⟩ := exists_writesOf hexec
  have hkept (f : StateField) (hf : i ∉ f.writers) : f.Kept s t := (hwrites.kept f hf).trans (hend.kept f)
  have hnever : i ∉ [] := List.not_mem_nil
  refine ⟨⟨hkept .src hnever, hkept .dst hnever, hkept .len hnever, hkept .config hnever, hkept .pending hnever,
      hkept .reply hnever⟩,
    fun hi => ⟨hkept .cipher hi, hkept .kbuf hi, hkept .life hi⟩, hkept .weak, fun hi => ?_,
    fun hi => ⟨hkept .doutHi hi, hkept .doutLo hi⟩, fun hi => ⟨hkept .cvHi hi, hkept .cvLo hi⟩, hkept .result,
    fun he => (hend.sticky_of_err_eq he).trans hwrites.sticky, fun he => (hend.faddr_of_err_ne he).trans hwrites.faddr,
    hend.err_ne_busError, hkept .mem⟩
  have hzero : i ∉ [Instr.zeroize] := mt List.mem_singleton.1 hi
  exact ⟨hkept .dinHi hzero, hkept .dinLo hzero⟩

end Sys2Proof.Machine
end

section
/-! Proofs of the statements on the key schedule (spec 40_key_schedule.md). KEYSCHED's boxes depend on the cyclic
extension of the key in memory alone (`exec_keysched_keyed`, `keyByte_keyBytes`); FillBoxes is one sequence of pair
writes (`fillBoxes_eq`), the n-th of which writes the flat positions `2 n` and `2 n + 1` (`Filling.wordAt_stepPair`). -/

namespace Sys2Proof.Machine

/-! ## Mixing the key in (40_key_schedule.md R104) -/

/-- The byte taken after `t` bytes stands at the running index of R104. -/
theorem keyByte_eq_runningIndex (kbuf : Vector Byte 56) (kl t : Nat) :
    keyByte kbuf kl t = kbuf[runningIndex kl t]?.getD 0 := by
  rw [keyByte, runningIndex_eq]

theorem getElem_mixKey (kbuf : Vector Byte 56) (kl : Nat) (c : CipherState) (i : Nat) (h : i < 18) :
    (mixKey kbuf kl c).p[i] = c.p[i] ^^^ keyWord kbuf kl i := by
  simp [mixKey]

/-- Settles O35: `MixKey` XORs in the key words, whose bytes stand at the running index. -/
theorem mixKeyWrapsTheKeyByteByByte : Obligations.MixKeyWrapsTheKeyByteByByte := by
  intro kbuf kl c _ _
  refine ⟨rfl, fun i h => ?_⟩
  simp only [getElem_mixKey, keyWord, wordOfBytes, keyByte_eq_runningIndex, Nat.add_zero]

/-! ## Filling the boxes (40_key_schedule.md R105) -/

/-- The `n`-th of the 521 turns of FillBoxes: 9 pairs of the P-box, then 128 pairs of each S-box. -/
def Filling.stepPair (g : Filling) (n : Nat) : Filling :=
  if n < 9 then g.stepP (2 * n) else g.stepS (Fin.ofNat 4 ((n - 9) / 128)) (2 * ((n - 9) % 128))

/-- The boxes and the running block after the first `n` turns of FillBoxes. -/
def fillingAfter (c : CipherState) : Nat → Filling
  | 0 => { cipher := c, lr := (0, 0) }
  | n + 1 => (fillingAfter c n).stepPair n

theorem Filling.stepPair_p {n : Nat} (h : n < 9) (g : Filling) : g.stepPair n = g.stepP (2 * n) := if_pos h

theorem Filling.stepPair_s (b : Fin 4) {j : Nat} (h : j < 128) (g : Filling) :
    g.stepPair (9 + 128 * b + j) = g.stepS b (2 * j) := by
  have hb : (9 + 128 * b.val + j - 9) / 128 = b := by omega
  have hj : (9 + 128 * b.val + j - 9) % 128 = j := by omega
  rw [Filling.stepPair, if_neg (by omega), hb, hj, Fin.ofNat_val_eq_self]

theorem fillingAfter_add (c : CipherState) (m k : Nat) :
    fillingAfter c (m + k) = (List.range k).foldl (fun g j => g.stepPair (m + j)) (fillingAfter c m) := by
  induction k with
  | zero => rfl
  | succ k ih => rw [List.range_succ, List.foldl_append, ← ih]; rfl

/-- The first 9 turns fill the P-box. -/
theorem fillingAfter_p (c : CipherState) : fillingAfter c 9 = (fillingAfter c 0).fillP := by
  rw [← Nat.zero_add 9, fillingAfter_add, Filling.fillP]
  refine List.foldl_ext _ _ _ fun g j hj => ?_
  rw [Nat.zero_add, g.stepPair_p (List.mem_range.1 hj)]

/-- The next 128 turns after the boxes before `S[b]` fill `S[b]`. -/
theorem fillingAfter_s (c : CipherState) (b : Fin 4) :
    fillingAfter c (9 + 128 * b + 128) = (fillingAfter c (9 + 128 * b)).fillS b := by
  rw [fillingAfter_add, Filling.fillS]
  exact List.foldl_ext _ _ _ fun g j hj => g.stepPair_s b (List.mem_range.1 hj)

theorem fillBoxes_eq (c : CipherState) : fillBoxes c = (fillingAfter c 521).cipher := by
  have h0 : fillingAfter c 137 = (fillingAfter c 9).fillS 0 := fillingAfter_s c 0
  have h1 : fillingAfter c 265 = (fillingAfter c 137).fillS 1 := fillingAfter_s c 1
  have h2 : fillingAfter c 393 = (fillingAfter c 265).fillS 2 := fillingAfter_s c 2
  have h3 : fillingAfter c 521 = (fillingAfter c 393).fillS 3 := fillingAfter_s c 3
  rw [h3, h2, h1, h0, fillingAfter_p]
  rfl

/-! ### What one turn writes -/

theorem getElem_setPair {n : Nat} (v : Vector Word n) (k : Nat) (a b : Word) (j : Nat) (hj : j < n) :
    ((v.setIfInBounds k a).setIfInBounds (k + 1) b)[j] = if j = k then a else if j = k + 1 then b else v[j] := by
  simp only [Vector.getElem_setIfInBounds, eq_comm (a := j)]
  split
  · rw [if_neg (by omega)]
  · rfl

theorem CipherState.wordAt_p (c : CipherState) (w : Nat) (h : w < 18) : c.wordAt w = c.p[w] := by
  simp [CipherState.wordAt, h]

theorem CipherState.wordAt_s (c : CipherState) (b : Fin 4) (k : Nat) (h : k < 256) :
    c.wordAt (18 + 256 * b + k) = c.s[b][k] := by
  have hb : (18 + 256 * b.val + k - 18) / 256 = b := by omega
  have hk : (18 + 256 * b.val + k - 18) % 256 = k := by omega
  rw [CipherState.wordAt, if_neg (by omega), hb, hk]
  simp [h]

/-- A flat position is one of the P-box or one of an S-box. -/
theorem wordAt_position {w : Nat} (h : w < 1042) :
    w < 18 ∨ ∃ (b : Fin 4) (k : Nat), k < 256 ∧ w = 18 + 256 * b + k := by
  by_cases hp : w < 18
  · exact .inl hp
  · exact .inr ⟨⟨(w - 18) / 256, by omega⟩, (w - 18) % 256, by omega, by dsimp only; omega⟩

/-- The running block is encrypted with the boxes as they stand. -/
theorem Filling.lr_stepPair (g : Filling) (n : Nat) : (g.stepPair n).lr = g.cipher.encrypt g.lr := by
  rw [Filling.stepPair]
  split <;> rfl

theorem Filling.wordAt_stepP (g : Filling) (i : Nat) (hi : i + 1 < 18) {w : Nat} (hw : w < 1042) :
    (g.stepP i).cipher.wordAt w =
      if w = i then (g.stepP i).lr.1 else if w = i + 1 then (g.stepP i).lr.2 else g.cipher.wordAt w := by
  obtain hp | ⟨b, k, hk, rfl⟩ := wordAt_position hw
  · rw [CipherState.wordAt_p _ w hp, CipherState.wordAt_p _ w hp]
    exact getElem_setPair _ _ _ _ w hp
  · rw [if_neg (by omega), if_neg (by omega), CipherState.wordAt_s _ b k hk, CipherState.wordAt_s _ b k hk]
    rfl

theorem Filling.wordAt_stepS (g : Filling) (b : Fin 4) (k : Nat) (hk : k + 1 < 256) {w : Nat} (hw : w < 1042) :
    (g.stepS b k).cipher.wordAt w =
      if w = 18 + 256 * b + k then (g.stepS b k).lr.1
      else if w = 18 + 256 * b + k + 1 then (g.stepS b k).lr.2 else g.cipher.wordAt w := by
  obtain hp | ⟨b', k', hk', rfl⟩ := wordAt_position hw
  · rw [if_neg (by omega), if_neg (by omega), CipherState.wordAt_p _ w hp, CipherState.wordAt_p _ w hp]
    rfl
  · rw [CipherState.wordAt_s _ b' k' hk', CipherState.wordAt_s _ b' k' hk']
    by_cases hb : b' = b
    · subst hb
      have h1 : (18 + 256 * b'.val + k' = 18 + 256 * b' + k) = (k' = k) := by simp
      have h2 : (18 + 256 * b'.val + k' = 18 + 256 * b' + k + 1) = (k' = k + 1) := by simp [Nat.add_assoc]
      simp only [h1, h2]
      have hbox : (g.stepS b' k).cipher.s[b'] =
          ((g.cipher.s[b']).setIfInBounds k (g.stepS b' k).lr.1).setIfInBounds (k + 1) (g.stepS b' k).lr.2 :=
        Vector.getElem_set_self b'.isLt
      rw [hbox]
      exact getElem_setPair _ _ _ _ k' hk'
    · have hne : b.val ≠ b' := fun h => hb (Fin.ext h.symm)
      have hbox : (g.stepS b k).cipher.s[b'] = g.cipher.s[b'] := Vector.getElem_set_ne b.isLt b'.isLt hne
      rw [if_neg (by omega), if_neg (by omega), hbox]

theorem Filling.wordAt_stepPair (g : Filling) {n : Nat} (hn : n < 521) {w : Nat} (hw : w < 1042) :
    (g.stepPair n).cipher.wordAt w =
      if w = 2 * n then (g.stepPair n).lr.1 else if w = 2 * n + 1 then (g.stepPair n).lr.2
      else g.cipher.wordAt w := by
  by_cases hp : n < 9
  · rw [g.stepPair_p hp]
    exact g.wordAt_stepP (2 * n) (by omega) hw
  · obtain ⟨b, j, hj, rfl⟩ : ∃ (b : Fin 4) (j : Nat), j < 128 ∧ n = 9 + 128 * b + j :=
      ⟨⟨(n - 9) / 128, by omega⟩, (n - 9) % 128, by omega, by dsimp only; omega⟩
    have hpos : 2 * (9 + 128 * b.val + j) = 18 + 256 * b + 2 * j := by omega
    rw [g.stepPair_s b hj, hpos]
    exact g.wordAt_stepS b (2 * j) (by omega) hw

/-- Settles O36: the sequences are the turns of `fillingAfter`. -/
theorem fillBoxesWritesPairByPair : Obligations.FillBoxesWritesPairByPair := fun c =>
  ⟨fun n => (fillingAfter c n).cipher, fun n => (fillingAfter c n).lr, rfl, rfl, (fillBoxes_eq c).symm,
    fun n hn => ⟨(fillingAfter c n).lr_stepPair n, fun _ hw => (fillingAfter c n).wordAt_stepPair hn hw⟩⟩

/-! ## KEYSCHED on every path (40_key_schedule.md R103, R106) -/

/-- The key bytes in KBUF, read cyclically, are the key bytes in memory, read cyclically. -/
theorem keyByte_keyBytes (s : State) (kbuf : Vector Byte 56) {kl : Nat} (h0 : 0 < kl) (h56 : kl ≤ 56) (t : Nat) :
    keyByte (keyBytes s 0 kl kbuf) kl t = s.mem.byteAt s.src (t % kl) := by
  have hlt : t % kl < kl := Nat.mod_lt t h0
  rw [keyByte, Vector.getElem?_eq_getElem (by omega), Option.getD_some, getElem_keyBytes, if_pos (by omega)]

theorem not_badLength {n : Nat} (h1 : 1 ≤ n) (h56 : n ≤ 56) : ¬(n < 1 ∨ maxKeyLength < n) := by
  rw [maxKeyLength]
  omega

section
variable {s : State} (hz : s.life ≠ .zeroized)
include hz

theorem exec_keysched_badLength (h : s.len.toNat < 1 ∨ 56 < s.len.toNat) :
    exec .keysched s = failKeysched .invalidKeyLength s := by
  change execKeysched s = _
  rw [execKeysched, requireNotZeroized_other hz]
  exact if_pos h

theorem exec_keysched_refused (h1 : 1 ≤ s.len.toNat) (h56 : s.len.toNat ≤ 56) {j : Nat} (hj : j < s.len.toNat)
    (hadm : Admitted s.config s.src j) (hf : s.config.admits (s.src + BitVec.ofNat 32 j) = false) :
    exec .keysched s = failKeysched .busError { s with faddr := s.src + BitVec.ofNat 32 j } := by
  have hload := loadKey_error (i := 0) s.kbuf hj (by simpa [Admitted] using hadm) (by simpa using hf)
  change execKeysched s = _
  rw [execKeysched, requireNotZeroized_other hz, if_neg (not_badLength h1 h56), hload, Nat.zero_add]

theorem exec_keysched_keyed (h1 : 1 ≤ s.len.toNat) (h56 : s.len.toNat ≤ 56) (hadm : Admitted s.config s.src s.len.toNat) :
    exec .keysched s = .next { s with
      cipher := keySchedule (keyBytes s 0 s.len.toNat s.kbuf) s.len.toNat, kbuf := Vector.replicate 56 0,
      life := .keyed, weak := false, err := 0 } := by
  have hload := loadKey_ok (i := 0) s.kbuf (n := s.len.toNat) (by simpa [Admitted] using hadm)
  change execKeysched s = _
  rw [execKeysched, requireNotZeroized_other hz, if_neg (not_badLength h1 h56), hload]
  simp only [installKey_eq, finish, State.clearErr]

end

/-- Settles O37: one lemma for each path; on the last, any KBUF with the key's bytes gives the same boxes. -/
theorem keyschedFollowsItsRule : Obligations.KeyschedFollowsItsRule := by
  refine ⟨by decide, fun s => ⟨fun hz => requireNotZeroized_zeroized hz _, fun hz => ⟨fun hlen => ?_, fun h1 h56 =>
    ⟨fun j hj hadm hf => exec_keysched_refused hz h1 h56 hj hadm hf, fun hadm kbuf hkey => ?_⟩⟩⟩⟩
  · refine exec_keysched_badLength hz (hlen.imp_left fun h => ?_)
    rw [h]
    decide
  · have hboxes : keySchedule (keyBytes s 0 s.len.toNat s.kbuf) s.len.toNat = keySchedule kbuf s.len.toNat := by
      refine keySchedule_of_key_eq h1 h56 fun j hj => ?_
      rw [getElem_keyBytes, if_pos (by omega), hkey j (by omega) hj, Memory.byteAt]
    rw [exec_keysched_keyed hz h1 h56 hadm, hboxes]
    rfl

/-! ## What the boxes depend on (40_key_schedule.md R107, R109) -/

/-- Keys whose cyclic extensions agree on 72 bytes give the same boxes, wherever they stand and whatever was there. -/
theorem exec_keysched_congr {s s' : State} (hz : s.life ≠ .zeroized) (hz' : s'.life ≠ .zeroized)
    (h1 : 1 ≤ s.len.toNat) (h56 : s.len.toNat ≤ 56) (h1' : 1 ≤ s'.len.toNat) (h56' : s'.len.toNat ≤ 56)
    (hadm : Admitted s.config s.src s.len.toNat) (hadm' : Admitted s'.config s'.src s'.len.toNat)
    (hkey : ∀ t < 72, s.mem.byteAt s.src (t % s.len.toNat) = s'.mem.byteAt s'.src (t % s'.len.toNat)) :
    ∃ t t', exec .keysched s = .next t ∧ exec .keysched s' = .next t' ∧ t.life = .keyed ∧ t'.life = .keyed ∧
      t.cipher = t'.cipher := by
  refine ⟨_, _, exec_keysched_keyed hz h1 h56 hadm, exec_keysched_keyed hz' h1' h56' hadm', rfl, rfl, ?_⟩
  refine keySchedule_congr fun t ht => ?_
  rw [keyByte_keyBytes s _ h1 h56, keyByte_keyBytes s' _ h1' h56', hkey t ht]

/-- Settles O38: equal key bytes of one length have equal cyclic extensions. -/
theorem sameKeyBytesSameBoxes : Obligations.SameKeyBytesSameBoxes := by
  intro s s' hz hz' h1 h56 hlen hadm hadm' hkey
  rw [← hlen] at hadm'
  refine exec_keysched_congr hz hz' h1 h56 (by rwa [hlen]) (by rwa [hlen]) hadm hadm' fun t _ => ?_
  rw [hlen]
  exact hkey _ (Nat.mod_lt t h1)

/-- Settles O39: `exec_keysched_congr`, whose lengths may differ. -/
theorem cyclicallyEqualKeysSameBoxes : Obligations.CyclicallyEqualKeysSameBoxes := by
  intro s s' hz hz' h1 h56 h1' h56' hadm hadm' hkey
  obtain ⟨t, t', h, h', -, -, hboxes⟩ := exec_keysched_congr hz hz' h1 h56 h1' h56' hadm hadm' hkey
  exact ⟨t, t', h, h', hboxes⟩

end Sys2Proof.Machine
end

section
/-! Proofs of the statements on the block transforms and the raw commands (spec 41_block_transform.md). The cipher's one
idea is `CipherState.round_final_round`: a round of Decrypt takes the last round of Encrypt back and leaves the closing
XORs one index lower. Encrypt undoes Decrypt by the same fact for the P-box reversed (`CipherState.reversed`). The
buffer commands end well in `State.bufferEnd`; in place, a loop whose rule undoes that of the loop before it puts memory back
(`Undoes.bufferEnd_bufferEnd`). -/

namespace Sys2Proof.Machine

/-! ## The round function (R120, R121) -/

theorem toNat_wordByte (x : Word) (i : Nat) : (wordByte x i).toNat = x.toNat / 2 ^ (24 - 8 * i) % 256 := by
  rw [wordByte, BitVec.extractLsb'_toNat, Nat.shiftRight_eq_div_pow]

theorem CipherState.toNat_sbox (c : CipherState) (b : Fin 4) (k : Byte) :
    (c.sbox b k).toNat = (c.s[b][k.toNat]?.getD 0).toNat := by
  rw [CipherState.sbox, Vector.getElem?_eq_getElem k.isLt, Option.getD_some]

/-- Settles O31: the four bytes of `x` in natural numbers, the most significant a quotient alone. -/
theorem roundFunctionAddsXorsAdds : Obligations.RoundFunctionAddsXorsAdds := by
  intro c x
  have htop : x.toNat / 2 ^ 24 % 256 = x.toNat / 2 ^ 24 := Nat.mod_eq_of_lt (by omega)
  simp only [CipherState.f, BitVec.toNat_add, BitVec.toNat_xor, CipherState.toNat_sbox, toNat_wordByte, Nat.reduceMul,
    Nat.reduceSub, htop, Nat.pow_zero, Nat.div_one]

/-! ## The rounds as the spec counts them (R122, R123) -/

section
variable (c : CipherState) (idx : Nat → Nat) (l r : Word)

theorem afterRounds_succ {n : Nat} {i : Fin 18} (h : idx n = i) :
    afterRounds c idx l r (n + 1) = c.round i (afterRounds c idx l r n) := by
  rw [afterRounds, h, CipherState.round, Vector.getElem?_eq_getElem i.isLt, Option.getD_some]
  rfl

theorem CipherState.rounds_concat (is : List (Fin 18)) (i : Fin 18) (lr : Word × Word) :
    c.rounds (is ++ [i]) lr = c.round i (c.rounds is lr) := by
  induction is generalizing lr with
  | nil => rfl
  | cons j is ih => exact ih (c.round j lr)

/-- The rounds over a list of P indices are those that `idx` counts, where it gives the list's members. -/
theorem afterRounds_eq_rounds (is : List (Fin 18)) (h : ∀ n (hn : n < is.length), idx n = is[n]) :
    afterRounds c idx l r is.length = c.rounds is (l, r) := by
  induction is using List.reverseRecOn with
  | nil => rfl
  | append_singleton is i ih =>
    have hlast : idx is.length = i := by simpa using h is.length (by simp)
    have hinit : ∀ n (hn : n < is.length), idx n = is[n] := fun n hn => by
      rw [h n (by simp; omega), List.getElem_append_left hn]
    rw [List.length_append, List.length_singleton, afterRounds_succ c idx l r hlast, ih hinit, c.rounds_concat]

end

theorem afterRounds_encRounds (c : CipherState) (l r : Word) :
    afterRounds c (fun n => n) l r 16 = c.rounds encRounds (l, r) :=
  afterRounds_eq_rounds c _ l r encRounds (by decide)

theorem afterRounds_decRounds (c : CipherState) (l r : Word) :
    afterRounds c (fun n => 17 - n) l r 16 = c.rounds decRounds (l, r) :=
  afterRounds_eq_rounds c _ l r decRounds (by decide)

/-- Settles O32: the 16 rounds are those of `encRounds`, and `final` is the two XORs. -/
theorem encryptIsSixteenRounds : Obligations.EncryptIsSixteenRounds := by
  intro c l r
  rw [afterRounds_encRounds]
  rfl

/-! ## The P-box reversed (R123) -/

/-- The CipherState with its P-box in reverse order. -/
def CipherState.reversed (c : CipherState) : CipherState := { c with p := c.p.reverse }

section
variable (c : CipherState)

theorem CipherState.reversed_reversed : c.reversed.reversed = c := by
  simp [CipherState.reversed]

theorem CipherState.reversed_p (i : Fin 18) : c.reversed.p[i] = c.p[i.rev] := by
  simp [CipherState.reversed, Fin.rev]

/-- The round function does not read the P-box. -/
theorem CipherState.reversed_f (x : Word) : c.reversed.f x = c.f x := rfl

theorem CipherState.reversed_round (i : Fin 18) (lr : Word × Word) : c.reversed.round i lr = c.round i.rev lr := by
  simp only [CipherState.round, c.reversed_p, c.reversed_f]

theorem CipherState.reversed_rounds (is : List (Fin 18)) (lr : Word × Word) :
    c.reversed.rounds is lr = c.rounds (is.map Fin.rev) lr := by
  induction is generalizing lr with
  | nil => rfl
  | cons i is ih => rw [CipherState.rounds, c.reversed_round, ih, List.map_cons, CipherState.rounds]

theorem CipherState.reversed_encrypt (lr : Word × Word) : c.reversed.encrypt lr = c.decrypt lr := by
  have hrounds : encRounds.map Fin.rev = decRounds := by decide
  rw [CipherState.encrypt, CipherState.decrypt, c.reversed_rounds, hrounds, CipherState.final, c.reversed_p,
    c.reversed_p]
  rfl

theorem CipherState.reversed_decrypt (lr : Word × Word) : c.reversed.decrypt lr = c.encrypt lr := by
  rw [← c.reversed.reversed_encrypt, c.reversed_reversed]

end

/-- Settles O33: the rounds are those of `decRounds`, which are `encRounds` counted from the other end. -/
theorem decryptReversesThePBox : Obligations.DecryptReversesThePBox := by
  intro c l r
  rw [afterRounds_decRounds]
  exact ⟨rfl, (c.reversed_encrypt (l, r)).symm⟩

/-! ## Decrypt and Encrypt undo each other (R124) -/

section
variable (c : CipherState)

/-- A round of Decrypt after the closing XORs takes the last round of Encrypt back, and what remains are the closing
XORs one index lower. -/
theorem CipherState.round_final_round (i j k : Fin 18) (lr : Word × Word) :
    c.round j (c.final i j (c.round k lr)) = c.final k i lr := by
  have hcancel (a b : Word) : a ^^^ b ^^^ b = a := by rw [BitVec.xor_assoc, BitVec.xor_self, BitVec.xor_zero]
  have hright (a b p : Word) : a ^^^ b ^^^ p ^^^ b = a ^^^ p := by
    rw [BitVec.xor_assoc a, BitVec.xor_comm b, ← BitVec.xor_assoc, hcancel]
  simp only [CipherState.round, CipherState.final, hcancel, hright]

theorem CipherState.final_final (i j : Fin 18) (lr : Word × Word) : c.final i j (c.final j i lr) = lr := by
  simp [CipherState.final]

/-- The sixteen rounds of Decrypt take back those of Encrypt, the last first, and then the XORs are undone. -/
theorem CipherState.decrypt_encrypt (lr : Word × Word) : c.decrypt (c.encrypt lr) = lr := by
  simp only [CipherState.decrypt, CipherState.encrypt, decRounds, encRounds, CipherState.rounds, c.round_final_round,
    c.final_final]

/-- The same for the P-box reversed, where the two transforms change places. -/
theorem CipherState.encrypt_decrypt (lr : Word × Word) : c.encrypt (c.decrypt lr) = lr := by
  rw [← c.reversed_decrypt, ← c.reversed_encrypt, c.reversed.decrypt_encrypt]

theorem CipherState.encryptBlock_blockOf (l r : Word) :
    c.encryptBlock (blockOf l r) = blockOf (c.encrypt (l, r)).1 (c.encrypt (l, r)).2 := by
  simp [CipherState.encryptBlock]

theorem CipherState.decryptBlock_blockOf (l r : Word) :
    c.decryptBlock (blockOf l r) = blockOf (c.decrypt (l, r)).1 (c.decrypt (l, r)).2 := by
  simp [CipherState.decryptBlock]

@[simp] theorem CipherState.decryptBlock_encryptBlock (b : Block) : c.decryptBlock (c.encryptBlock b) = b := by
  rw [CipherState.encryptBlock, c.decryptBlock_blockOf, c.decrypt_encrypt, blockOf_hi_lo]

@[simp] theorem CipherState.encryptBlock_decryptBlock (b : Block) : c.encryptBlock (c.decryptBlock b) = b := by
  rw [CipherState.decryptBlock, c.encryptBlock_blockOf, c.encrypt_decrypt, blockOf_hi_lo]

end

/-- Settles O34: `decryptBlock` is a two-sided inverse. -/
theorem decryptInvertsEncrypt : Obligations.DecryptInvertsEncrypt := by
  intro c
  refine ⟨fun l r => ⟨c.decrypt_encrypt (l, r), c.encrypt_decrypt (l, r)⟩, ?_⟩
  exact Function.bijective_iff_has_inverse.2
    ⟨c.decryptBlock, c.decryptBlock_encryptBlock, c.encryptBlock_decryptBlock⟩

/-! ## ENC_BLK and DEC_BLK (R125, R126) -/

theorem finish_setDout_blockOf (s : State) (l r : Word) :
    finish (s.setDout (blockOf l r)) = .next { s with doutHi := l, doutLo := r, err := 0 } := by
  rw [finish_eq, State.setDout, hi_blockOf, lo_blockOf]

section
variable {s : State} (hk : s.life = .keyed)
include hk

theorem exec_encBlk_keyed :
    exec .encBlk s = .next { s with
      doutHi := (s.cipher.encrypt (s.dinHi, s.dinLo)).1, doutLo := (s.cipher.encrypt (s.dinHi, s.dinLo)).2,
      err := 0 } := by
  change execEncBlk s = _
  rw [execEncBlk, requireKeyed_keyed hk, State.din, CipherState.encryptBlock_blockOf, finish_setDout_blockOf]

theorem exec_decBlk_keyed :
    exec .decBlk s = .next { s with
      doutHi := (s.cipher.decrypt (s.dinHi, s.dinLo)).1, doutLo := (s.cipher.decrypt (s.dinHi, s.dinLo)).2,
      err := 0 } := by
  change execDecBlk s = _
  rw [execDecBlk, requireKeyed_keyed hk, State.din, CipherState.decryptBlock_blockOf, finish_setDout_blockOf]

end

/-- The state errors of a command that needs a key, as the statements write them. -/
theorem exec_stateErrors {i : Instr} (hi : i ∈ needsKey) (s : State) :
    (s.life = .zeroized → exec i s = .next { s with err := 0x04, sticky := true }) ∧
      (s.life = .unkeyed → exec i s = .next { s with err := 0x03, sticky := true }) := by
  obtain ⟨hzeroized, hunkeyed⟩ := lifeCycleChecksComeFirst s
  exact ⟨fun h => hzeroized h i (List.mem_cons_of_mem _ hi), fun h => hunkeyed h i hi⟩

/-- Settles O40: the keyed path, and the state errors of every command that needs a key. -/
theorem encBlkEncryptsDin : Obligations.EncBlkEncryptsDin :=
  ⟨by decide, fun s => ⟨exec_encBlk_keyed, exec_stateErrors (by decide) s⟩⟩

/-- Settles O41: likewise; of ENC_BLK's output, Decrypt takes Encrypt back. -/
theorem decBlkDecryptsDin : Obligations.DecBlkDecryptsDin := by
  refine ⟨by decide, fun s => ⟨fun hk => ⟨exec_decBlk_keyed hk, _, exec_encBlk_keyed hk, ?_⟩,
    exec_stateErrors (by decide) s⟩⟩
  refine (exec_decBlk_keyed ?_).trans ?_
  · exact hk
  · simp only [Prod.mk.eta, CipherState.decrypt_encrypt]

/-! ## The buffer commands (R127, R128) -/

theorem blockOffset_wholeBlocks (len : Word) : blockOffset (wholeBlocks len) = len - len % 8 := by
  have hle : len % 8 ≤ len := by
    rw [BitVec.le_def, BitVec.toNat_umod]
    exact Nat.mod_le _ _
  apply BitVec.eq_of_toNat_eq
  rw [BitVec.toNat_sub_of_le hle, blockOffset, eight_mul_wholeBlocks, BitVec.toNat_ofNat, BitVec.toNat_umod]
  exact Nat.mod_eq_of_lt (by omega)

/-- The state in which a buffer command ends well. -/
def State.bufferEnd (out : Block → Block → Block) (nx : Block → Block → Block → Block) (s : State) : State :=
  ((s.atBlock out nx (wholeBlocks s.len)).setResult (blockOffset (wholeBlocks s.len))).clearErr

section
variable {transform : State → Block → Block} {chain : State → Block → Block → State} {out : Block → Block → Block}
  {nx : Block → Block → Block → Block} {s : State} {i : Instr} (hr : LoopRule transform chain s.cipher out nx)
  (hexec : exec i s = requireKeyed s (bufferLoop transform chain (wholeBlocks s.len) 0 s)) (hk : s.life = .keyed)
include hr hexec hk

/-- A buffer command on a keyed core, every block admitted. -/
theorem LoopRule.exec_done (h : ∀ j < wholeBlocks s.len, BlockAdmitted s j) :
    exec i s = .next (s.bufferEnd out nx) := by
  rw [hexec, requireKeyed_keyed hk, bufferLoop_done hr h]
  rfl

/-- A buffer command on a keyed core that meets a bus error at block `k`. -/
theorem LoopRule.exec_refused {k : Nat} {f : Word} (hlt : k < wholeBlocks s.len) (h : BlockRefusedAt s k f) :
    exec i s = raiseBusError f ((s.atBlock out nx k).setResult (blockOffset k)) := by
  rw [hexec, requireKeyed_keyed hk, bufferLoop_refused hr hlt h]

end

section
variable (out : Block → Block → Block) (s : State)

/-- The blocks of a raw command change memory alone (43_cbc.md R179). -/
theorem State.atBlock_unchained (k : Nat) :
    s.atBlock out (fun cv _ _ => cv) k = { s with mem := (afterBlocks out (fun cv _ _ => cv) s k).1 } := by
  rw [State.atBlock, afterBlocks_cv_of_unchained]
  exact State.setCv_cv { s with mem := (afterBlocks out (fun cv _ _ => cv) s k).1 }

theorem State.bufferEnd_unchained :
    s.bufferEnd out (fun cv _ _ => cv) = { s with
      mem := (afterBlocks out (fun cv _ _ => cv) s (wholeBlocks s.len)).1, result := s.len - s.len % 8, err := 0 } := by
  rw [State.bufferEnd, State.atBlock_unchained, blockOffset_wholeBlocks]
  rfl

theorem State.cv_bufferEnd_unchained : (s.bufferEnd out (fun cv _ _ => cv)).cv = s.cv := by
  rw [State.bufferEnd_unchained]
  rfl

end

/-- What a raw buffer command does on a keyed core, ending well and with a bus error. -/
theorem exec_rawBuffer {transform : State → Block → Block} {out : Block → Block → Block} {s : State} {i : Instr}
    (hr : LoopRule transform noChain s.cipher out (fun cv _ _ => cv))
    (hexec : exec i s = requireKeyed s (bufferLoop transform noChain (wholeBlocks s.len) 0 s)) (hk : s.life = .keyed) :
    let m := fun k => (afterBlocks out (fun cv _ _ => cv) s k).1
    ((∀ j < s.len.toNat / 8, BlockAdmitted s j) →
      exec i s = .next { s with mem := m (s.len.toNat / 8), result := s.len - s.len % 8, err := 0 }) ∧
    ∀ k < s.len.toNat / 8, ∀ f, BlockRefusedAt s k f →
      exec i s = .next { s with
        mem := m k, result := BitVec.ofNat 32 (8 * k), faddr := f, err := 0x07, sticky := true } := by
  refine ⟨fun h => ?_, fun k hlt f h => ?_⟩
  · rw [hr.exec_done hexec hk h, State.bufferEnd_unchained]
    rfl
  · rw [hr.exec_refused hexec hk hlt h, State.atBlock_unchained]
    rfl

/-- Settles O44: the loop with Encrypt. -/
theorem encBufGoesBlockByBlock : Obligations.EncBufGoesBlockByBlock :=
  ⟨by decide, fun s => ⟨exec_rawBuffer (loopRule_encBuf s.cipher) rfl, exec_stateErrors (by decide) s⟩⟩

/-- Settles O45: the loop with Decrypt. -/
theorem decBufGoesBlockByBlock : Obligations.DecBufGoesBlockByBlock :=
  ⟨by decide, fun s => ⟨exec_rawBuffer (loopRule_decBuf s.cipher) rfl, exec_stateErrors (by decide) s⟩⟩

/-! ## Decrypting in place what was encrypted in place (R124, 43_cbc.md R178) -/

/-- From the same chaining value, the loop of `out'` and `nx'` takes each output block of the loop of `out` and `nx`
back to its input block, and goes on with the same chaining value. -/
structure Undoes (out' : Block → Block → Block) (nx' : Block → Block → Block → Block) (out : Block → Block → Block)
    (nx : Block → Block → Block → Block) : Prop where
  out_out : ∀ cv inp, out' cv (out cv inp) = inp
  nx_out  : ∀ cv inp, nx' cv (out cv inp) inp = nx cv inp (out cv inp)

theorem undoes_raw (c : CipherState) :
    Undoes (fun _ inp => c.decryptBlock inp) (fun cv _ _ => cv) (fun _ inp => c.encryptBlock inp) (fun cv _ _ => cv) :=
  ⟨fun _ inp => c.decryptBlock_encryptBlock inp, fun _ _ => rfl⟩

theorem undoes_cbc (c : CipherState) :
    Undoes (fun cv inp => c.decryptBlock inp ^^^ cv) (fun _ inp _ => inp)
      (fun cv inp => c.encryptBlock (inp ^^^ cv)) (fun _ _ o => o) :=
  ⟨fun cv inp => by rw [c.decryptBlock_encryptBlock, BitVec.xor_assoc, BitVec.xor_self, BitVec.xor_zero],
    fun _ _ => rfl⟩

section
variable {out' out : Block → Block → Block} {nx' nx : Block → Block → Block → Block} (hu : Undoes out' nx' out nx)

section
variable {cv : Block} {inp inp' : Nat → Block} {n : Nat} (hinp : ∀ k < n, inp' k = outputBlock out nx cv inp k)
include hu hinp

theorem Undoes.chainValue_eq {k : Nat} (hk : k ≤ n) : chainValue out' nx' cv inp' k = chainValue out nx cv inp k := by
  induction k with
  | zero => rfl
  | succ k ih => rw [chainValue, ih (by omega), hinp k hk, outputBlock, hu.out_out, hu.nx_out, chainValue]

theorem Undoes.outputBlock_eq {k : Nat} (hk : k < n) : outputBlock out' nx' cv inp' k = inp k := by
  rw [outputBlock, hu.chainValue_eq hinp hk.le, hinp k hk, outputBlock, hu.out_out]

end

theorem byteOf_inputBlock (s : State) (k : Nat) {i : Nat} (hi : i < 8) :
    byteOf (s.inputBlock k) i = Memory.read s.mem (s.src + BitVec.ofNat 32 (8 * k + i)).toNat := by
  rw [State.inputBlock, Memory.readBlock, byteOf_blockOfBytes _ hi, Memory.byteAt, block_address]

section
variable {s t : State} {n : Nat} (hm : s.mem.wf = true) (hn : 8 * n ≤ 2 ^ 32) (hdst : s.dst = s.src)
  (htsrc : t.src = s.src) (htmem : t.mem = (afterBlocks out nx s n).1)
include hm hn hdst htsrc htmem

/-- In place, the output blocks of one run are the input blocks of the next. -/
theorem inputBlock_afterBlocks {k : Nat} (hk : k < n) : t.inputBlock k = outputBlock out nx s.cv s.inputBlock k := by
  refine block_ext fun i hi => ?_
  have hread := read_output_afterBlocks (out := out) (nx := nx) (readsBeforeWrites_inPlace hdst hn) hm hn le_rfl
    (q := 8 * k + i) (by omega)
  rw [show (8 * k + i) / 8 = k by omega, show (8 * k + i) % 8 = i by omega, hdst] at hread
  rw [byteOf_inputBlock t k hi, htsrc, htmem, hread]

variable (htdst : t.dst = s.dst) (htcv : t.cv = s.cv)
include hu htdst htcv

/-- The second run, in place and from the same chaining value, restores memory and ends with the first's chaining
value. -/
theorem Undoes.afterBlocks_eq : afterBlocks out' nx' t n = (s.mem, (afterBlocks out nx s n).2) := by
  have hfresh : ReadsBeforeWrites t n := readsBeforeWrites_inPlace (by rw [htdst, hdst, htsrc]) hn
  have htm : t.mem.wf = true := htmem ▸ wf_afterBlocks hm n
  have hinp : ∀ k < n, t.inputBlock k = outputBlock out nx s.cv s.inputBlock k :=
    fun k hk => inputBlock_afterBlocks hm hn hdst htsrc htmem hk
  refine Prod.ext (Memory.ext_of_read (wf_afterBlocks htm n) hm fun x => ?_) ?_
  · by_cases hx : ∃ q < 8 * n, x = (s.dst + BitVec.ofNat 32 q).toNat
    · obtain ⟨q, hq, rfl⟩ := hx
      rw [← htdst, read_output_afterBlocks hfresh htm hn le_rfl hq, htcv, hu.outputBlock_eq hinp (by omega),
        byteOf_inputBlock s _ (Nat.mod_lt _ (by decide)), Nat.div_add_mod, htdst, hdst]
    · have hne : ∀ q < 8 * n, x ≠ (s.dst + BitVec.ofNat 32 q).toNat := fun q hq heq => hx ⟨q, hq, heq⟩
      rw [read_afterBlocks_of_ne n (by rwa [htdst]), htmem, read_afterBlocks_of_ne n hne]
  · rw [cv_afterBlocks hfresh le_rfl, htcv, hu.chainValue_eq hinp le_rfl,
      cv_afterBlocks (readsBeforeWrites_inPlace hdst hn) le_rfl]

end

theorem State.bufferEnd_of_afterBlocks {s : State} {m : Memory} {cv : Block}
    (h : afterBlocks out nx s (wholeBlocks s.len) = (m, cv)) :
    s.bufferEnd out nx = { s with
      mem := m, cvHi := hi cv, cvLo := lo cv, result := blockOffset (wholeBlocks s.len), err := 0 } := by
  rw [State.bufferEnd, State.atBlock, h]
  rfl

variable {s : State} (hm : s.mem.wf = true) (hdst : s.dst = s.src)
include hu hm hdst

/-- A buffer command in place, and the one that undoes it from the same start CV: memory is as before, and the end CVs
agree. -/
theorem Undoes.bufferEnd_bufferEnd :
    ((s.bufferEnd out nx).setCv s.cv).bufferEnd out' nx' = { s.bufferEnd out nx with mem := s.mem } := by
  obtain ⟨m, cv, hrun⟩ : ∃ m cv, afterBlocks out nx s (wholeBlocks s.len) = (m, cv) := ⟨_, _, rfl⟩
  have hmem : m = (afterBlocks out nx s (wholeBlocks s.len)).1 := by rw [hrun]
  rw [State.bufferEnd_of_afterBlocks hrun]
  have hundo := hu.afterBlocks_eq (t := { s with mem := m, result := blockOffset (wholeBlocks s.len), err := 0 }) hm
    (eight_mul_wholeBlocks_le s.len) hdst rfl hmem rfl rfl
  rw [hrun] at hundo
  simp only [State.setCv, State.hi_cv, State.lo_cv]
  exact State.bufferEnd_of_afterBlocks hundo

/-- So it is when the second command is run. -/
theorem Undoes.exec_bufferEnd {transform : State → Block → Block} {chain : State → Block → Block → State} {i : Instr}
    (hr : LoopRule transform chain s.cipher out' nx')
    (hexec : ∀ t, exec i t = requireKeyed t (bufferLoop transform chain (wholeBlocks t.len) 0 t))
    (hk : s.life = .keyed) (hadm : ∀ j < wholeBlocks s.len, BlockAdmitted s j) :
    exec i ((s.bufferEnd out nx).setCv s.cv) = .next { s.bufferEnd out nx with mem := s.mem } := by
  rw [← hu.bufferEnd_bufferEnd hm hdst]
  exact LoopRule.exec_done (s := (s.bufferEnd out nx).setCv s.cv) hr (hexec _) hk hadm

end

/-- Settles O51: raw and chained alike the decryption undoes the encryption; the raw commands leave CV alone, so it need
not be restored. -/
theorem bufferRoundTripInPlace : Obligations.BufferRoundTripInPlace := by
  intro s hm hk hdst hadm
  constructor
  · refine ⟨_, (loopRule_encBuf s.cipher).exec_done rfl hk hadm, ?_⟩
    have hraw := (undoes_raw s.cipher).exec_bufferEnd hm hdst (loopRule_decBuf s.cipher) (i := .decBuf) (fun _ => rfl)
      hk hadm
    rwa [← State.cv_bufferEnd_unchained (fun _ inp => s.cipher.encryptBlock inp) s, State.setCv_cv] at hraw
  · refine ⟨_, (loopRule_cbcEncBuf s.cipher).exec_done rfl hk hadm, ?_⟩
    have hcbc := (undoes_cbc s.cipher).exec_bufferEnd hm hdst (loopRule_cbcDecBuf s.cipher) (i := .cbcDecBuf)
      (fun _ => rfl) hk hadm
    rwa [State.setCv, State.hi_cv, State.lo_cv] at hcbc

end Sys2Proof.Machine
end

section
/-! Proofs of the statements on weak keys, the zeroizer and NOP (spec 42_weak_key_and_zeroize.md). WEAKCHK's scan finds
that a list is not duplicate-free (`hasDuplicate_iff`), which is read by index over the four S-boxes
(`CipherState.weakKey_iff`). The commands that need no key do not read the life-cycle state, and all but ZEROIZE leave
it (`exec_setLife_zeroized`). -/

namespace Sys2Proof.Machine

/-! ## WEAKCHK (R150) -/

/-- The two inner loops look for what a duplicate-free list does not have. -/
theorem hasDuplicate_iff (ws : List Word) : hasDuplicate ws = true ↔ ¬ ws.Nodup := by
  induction ws with
  | nil => simp [hasDuplicate]
  | cons w ws ih =>
    have hmem : ws.any (fun v => w == v) = true ↔ w ∈ ws := by simp
    rw [hasDuplicate, Bool.or_eq_true, hmem, ih, List.nodup_cons, not_and_or, not_not]

/-- By index: two equal words at different places. -/
theorem hasDuplicate_toList_iff {n : Nat} (box : Vector Word n) :
    hasDuplicate box.toList = true ↔ ∃ i j : Fin n, i < j ∧ box[i] = box[j] := by
  rw [hasDuplicate_iff, List.Nodup, List.pairwise_iff_getElem]
  constructor
  · intro h
    push Not at h
    obtain ⟨i, j, hi, hj, hij, heq⟩ := h
    rw [Vector.length_toList] at hi hj
    exact ⟨⟨i, hi⟩, ⟨j, hj⟩, hij, by simpa using heq⟩
  · rintro ⟨i, j, hij, heq⟩ hne
    exact hne i j (by simp) (by simp) hij (by simpa using heq)

/-- The boxes are those of a weak key when one S-box, taken by itself, holds two equal words. -/
theorem CipherState.weakKey_iff (c : CipherState) :
    c.weakKey = true ↔ ∃ (b : Fin 4) (i j : Fin 256), i < j ∧ c.s[b][i] = c.s[b][j] := by
  have hbox : (∃ box ∈ c.s.toList, hasDuplicate box.toList = true) ↔
      ∃ b : Fin 4, hasDuplicate c.s[b].toList = true := by
    simp only [List.mem_iff_getElem, Vector.length_toList, Vector.getElem_toList]
    constructor
    · rintro ⟨_, ⟨b, hb, rfl⟩, hdup⟩
      exact ⟨⟨b, hb⟩, hdup⟩
    · rintro ⟨b, hdup⟩
      exact ⟨_, ⟨b, b.isLt, rfl⟩, hdup⟩
  rw [CipherState.weakKey, List.any_eq_true, hbox]
  exact exists_congr fun b => hasDuplicate_toList_iff c.s[b]

/-- `zext_32(w)` of one bit. -/
theorem setWidth_ofBool (w : Bool) : BitVec.setWidth 32 (BitVec.ofBool w) = if w then 1 else 0 := by
  cases w <;> rfl

theorem exec_weakchk_keyed {s : State} (hk : s.life = .keyed) :
    exec .weakchk s = .next { s with
      weak := s.cipher.weakKey, result := if s.cipher.weakKey then 1 else 0, err := 0 } := by
  change execWeakchk s = _
  rw [execWeakchk, requireKeyed_keyed hk, setWidth_ofBool, finish_eq]
  rfl

/-- Settles O52: the keyed path, and the state errors of every command that needs a key. -/
theorem weakchkFindsDuplicates : Obligations.WeakchkFindsDuplicates :=
  ⟨by decide, fun s =>
    ⟨fun hk => ⟨s.cipher.weakKey, s.cipher.weakKey_iff, exec_weakchk_keyed hk⟩, exec_stateErrors (by decide) s⟩⟩

/-! ## ZEROIZE and NOP (R152, R154) -/

theorem exec_zeroize (s : State) : exec .zeroize s = .next { s.zeroized with err := 0 } := rfl

/-- Settles O53: the boxes are `CipherState.zero`, KBUF is 56 zero bytes. -/
theorem zeroizeErasesEverythingKeyed : Obligations.ZeroizeErasesEverythingKeyed :=
  ⟨by decide, fun s => ⟨_, exec_zeroize s, CipherState.zero_p, CipherState.zero_s,
    fun i => Vector.getElem_replicate i.isLt, rfl⟩⟩

/-- Settles O54: NOP is `finish` alone. -/
theorem nopOnlyClearsErr : Obligations.NopOnlyClearsErr := ⟨by decide, finish_eq⟩

/-! ## The commands that need no key, on a zeroized core (R153) -/

/-- The state with another life-cycle state. -/
def State.setLife (s : State) (l : LifeCycle) : State := { s with life := l }

theorem State.setLife_zeroized {s : State} (hz : s.life = .zeroized) (l : LifeCycle) :
    (s.setLife l).setLife .zeroized = s := by
  rw [State.setLife, ← hz]
  rfl

/-- `r'` answers what `r` answers, in the life-cycle state `l`. -/
def InLife (l : LifeCycle) (r r' : Result) : Prop := ∃ t, r = .next t ∧ r' = .next (t.setLife l)

section
variable (s : State) (l : LifeCycle)

theorem InLife.finish_setLife : InLife l (finish s) (finish (s.setLife l)) := ⟨_, rfl, rfl⟩

theorem InLife.raise_setLife (e : ErrorCause) : InLife l (raise e s) (raise e (s.setLife l)) := ⟨_, rfl, rfl⟩

theorem execCvLoad_setLife : InLife l (execCvLoad s) (execCvLoad (s.setLife l)) := by
  have hread : memReadBlock (s.setLife l) (s.setLife l).src = memReadBlock s s.src := rfl
  rw [execCvLoad, execCvLoad, hread]
  split
  · exact .raise_setLife { s with faddr := _ } l _
  · exact .finish_setLife (s.setCv _) l

theorem execCvStore_setLife : InLife l (execCvStore s) (execCvStore (s.setLife l)) := by
  obtain h | ⟨f, h⟩ := admitted_or_refused s.config s.dst 8
  · have h' : Admitted (s.setLife l).config (s.setLife l).dst 8 := h
    rw [execCvStore, execCvStore, memWriteBlock_ok h, memWriteBlock_ok h']
    exact .finish_setLife { s with mem := _ } l
  · have h' : RefusedAt (s.setLife l).config (s.setLife l).dst 8 f := h
    rw [execCvStore, execCvStore, memWriteBlock_error h, memWriteBlock_error h']
    exact .raise_setLife { s with faddr := f } l _

theorem execPadBlk_setLife : InLife l (execPadBlk s) (execPadBlk (s.setLife l)) := by
  have hlen : (s.setLife l).len = s.len := rfl
  rw [execPadBlk, execPadBlk, hlen]
  split
  · exact .raise_setLife s l _
  · exact .finish_setLife ((s.setDout _).setResult _) l

theorem execUnpadStrict_setLife : InLife l (execUnpadStrict s) (execUnpadStrict (s.setLife l)) := by
  have hdin : (s.setLife l).din = s.din := rfl
  rw [execUnpadStrict, execUnpadStrict, hdin]
  split
  · exact .raise_setLife s l _
  · split
    · exact .finish_setLife (s.setResult _) l
    · exact .raise_setLife s l _

/-- None of the commands that need no key reads the life-cycle state, KEYSCHED apart; ZEROIZE, the only one that writes
it, leaves the core zeroized. -/
theorem exec_setLife_zeroized {i : Instr} (hi : i ∉ Instr.keysched :: needsKey) :
    InLife .zeroized (exec i s) (exec i (s.setLife .zeroized)) := by
  cases i with
  | keysched | encBlk | decBlk | encBuf | decBuf | weakchk | cbcEncBlk | cbcDecBlk | cbcEncBuf | cbcDecBuf =>
    exact absurd (by decide) hi
  | nop => exact .finish_setLife s _
  | zeroize => exact .finish_setLife s.zeroized _
  | cvLoad => exact execCvLoad_setLife s _
  | cvStore => exact execCvStore_setLife s _
  | padBlk => exact execPadBlk_setLife s _
  | unpadStrict => exact execUnpadStrict_setLife s _
  | unpadLenient => exact .finish_setLife (s.setResult _) _

end

/-- Settles O13: the zeroized core is the unkeyed one with its life-cycle state set to ZEROIZED. -/
theorem zeroizedCoreRunsTheKeylessCommands : Obligations.ZeroizedCoreRunsTheKeylessCommands := by
  intro s hz i hi
  have hkeyless : i ∉ Instr.keysched :: needsKey := by
    revert i
    decide
  have halike := exec_setLife_zeroized (s.setLife .unkeyed) hkeyless
  rwa [State.setLife_zeroized hz] at halike

end Sys2Proof.Machine
end

section
/-! Proofs of the statements on the chaining value and the chained commands (spec 43_cbc.md). The raw commands ignore CV
(`IgnoresCv`), since neither their output blocks nor the admission checks depend on it. A run that begins where another
has done some of its blocks (`Continues`) does the blocks the other would have done next, so a chained stream may be
split. -/

namespace Sys2Proof.Machine

/-! ## CV_LOAD and CV_STORE (43_cbc.md R171, R172) -/

/-- A block of eight bytes has the first four in its left half and the last four in its right. -/
theorem blockOfBytes_eq_blockOf (f : Nat → Byte) :
    blockOfBytes f = blockOf (f 0 ++ f 1 ++ f 2 ++ f 3) (f 4 ++ f 5 ++ f 6 ++ f 7) := by
  apply BitVec.eq_of_getLsbD_eq
  intro j hj
  simp only [blockOfBytes, blockOf, BitVec.getLsbD_append]
  interval_cases j <;> rfl

theorem setCv_blockOf (s : State) (l r : Word) : s.setCv (blockOf l r) = { s with cvHi := l, cvLo := r } := by
  rw [State.setCv, hi_blockOf, lo_blockOf]

theorem exec_cvLoad_admitted {s : State} (h : Admitted s.config s.src 8) :
    exec .cvLoad s = finish (s.setCv (s.mem.readBlock s.src)) := by
  change execCvLoad s = _
  rw [execCvLoad, memReadBlock_ok h]

theorem exec_cvLoad_refused {s : State} {f : Word} (h : RefusedAt s.config s.src 8 f) :
    exec .cvLoad s = raiseBusError f s := by
  change execCvLoad s = _
  rw [execCvLoad, memReadBlock_error h]

theorem exec_cvStore_admitted {s : State} (h : Admitted s.config s.dst 8) :
    exec .cvStore s = finish { s with mem := s.mem.writeBlock s.dst s.cv } := by
  change execCvStore s = _
  rw [execCvStore, memWriteBlock_ok h]

theorem exec_cvStore_refused {s : State} {f : Word} (h : RefusedAt s.config s.dst 8 f) :
    exec .cvStore s = raiseBusError f s := by
  change execCvStore s = _
  rw [execCvStore, memWriteBlock_error h]

/-- Settles O29: the admission check decides between the two cases, and the block read is two words of four bytes. -/
theorem cvLoadReadsEightBytes : Obligations.CvLoadReadsEightBytes := by
  refine ⟨by decide, fun s => ⟨fun h => ?_, fun f h => ?_⟩⟩
  · rw [exec_cvLoad_admitted h, Memory.readBlock, blockOfBytes_eq_blockOf, setCv_blockOf]
    rfl
  · rw [exec_cvLoad_refused h]
    rfl

/-- Settles O30: the memory is the one `writeBlock` leaves, of which the bytes and the frame are known. -/
theorem cvStoreWritesEightBytes : Obligations.CvStoreWritesEightBytes := by
  refine ⟨by decide, fun s => ⟨fun hm h => ?_, fun f h => ?_⟩⟩
  · exact ⟨_, exec_cvStore_admitted h, fun k hk => Memory.byteAt_writeBlock hm s.dst s.cv hk,
      fun x hx => Memory.read_writeBlock_of_ne s.mem s.dst s.cv hx⟩
  · rw [exec_cvStore_refused h]
    rfl

/-! ## The raw commands and CV (R179) -/

/-- With another chaining value the command ends in the same state but for that value. -/
def IgnoresCv (run : State → Result) : Prop := ∀ s t cv, run s = .next t → run (s.setCv cv) = .next (t.setCv cv)

theorem ignoresCv_requireKeyed {run : State → Result} (h : IgnoresCv run) :
    IgnoresCv fun s => requireKeyed s (run s) := by
  intro s t cv ht
  cases hlife : s.life with
  | keyed =>
    refine (requireKeyed_keyed (s := s.setCv cv) hlife _).trans (h s t cv ?_)
    rwa [← requireKeyed_keyed hlife (run s)]
  | unkeyed =>
    cases (requireKeyed_unkeyed hlife _).symm.trans ht
    exact requireKeyed_unkeyed (s := s.setCv cv) hlife _
  | zeroized =>
    cases (requireKeyed_zeroized hlife _).symm.trans ht
    exact requireKeyed_zeroized (s := s.setCv cv) hlife _

section
variable (f : Block → Block) (s : State) (cv : Block)

/-- The memory of a raw loop does not depend on the chaining value, since no output block does. -/
theorem mem_afterBlocks_setCv (k : Nat) :
    (afterBlocks (fun _ inp => f inp) (fun cv _ _ => cv) (s.setCv cv) k).1 =
      (afterBlocks (fun _ inp => f inp) (fun cv _ _ => cv) s k).1 := by
  induction k with
  | zero => rfl
  | succ k ih => simp only [afterBlocks, ih, State.setCv_src, State.setCv_dst]

theorem State.atBlock_setCv (k : Nat) :
    (s.setCv cv).atBlock (fun _ inp => f inp) (fun cv _ _ => cv) k =
      (s.atBlock (fun _ inp => f inp) (fun cv _ _ => cv) k).setCv cv := by
  rw [State.atBlock_unchained, State.atBlock_unchained, mem_afterBlocks_setCv]
  rfl

end

/-- A raw loop stops where it stopped, since the admission checks do not read CV either. -/
theorem ignoresCv_rawLoop {transform : State → Block → Block} {f : CipherState → Block → Block}
    (hr : ∀ c, LoopRule transform noChain c (fun _ inp => f c inp) (fun cv _ _ => cv)) :
    IgnoresCv fun s => bufferLoop transform noChain (wholeBlocks s.len) 0 s := by
  intro s t cv ht
  obtain h | ⟨k, hk, a, h⟩ := blocks_admitted_or s (wholeBlocks s.len)
  · cases (bufferLoop_done (hr s.cipher) h).symm.trans ht
    refine (bufferLoop_done (s := s.setCv cv) (hr s.cipher) h).trans ?_
    rw [State.atBlock_setCv]
    rfl
  · cases (bufferLoop_refused (hr s.cipher) hk h).symm.trans ht
    refine (bufferLoop_refused (s := s.setCv cv) (hr s.cipher) hk h).trans ?_
    rw [State.atBlock_setCv]
    rfl

/-- A raw block command reads the boxes and DIN alone. -/
theorem ignoresCv_rawBlock (f : CipherState → Block → Block) :
    IgnoresCv fun s => finish (s.setDout (f s.cipher s.din)) := by
  rintro s _ cv ⟨⟩
  rfl

theorem ignoresCv_exec_raw {i : Instr} (hi : i ∈ [Instr.encBlk, .decBlk, .encBuf, .decBuf]) : IgnoresCv (exec i) := by
  simp only [List.mem_cons, List.not_mem_nil, or_false] at hi
  obtain rfl | rfl | rfl | rfl := hi
  · exact ignoresCv_requireKeyed (ignoresCv_rawBlock CipherState.encryptBlock)
  · exact ignoresCv_requireKeyed (ignoresCv_rawBlock CipherState.decryptBlock)
  · exact ignoresCv_requireKeyed (ignoresCv_rawLoop loopRule_encBuf)
  · exact ignoresCv_requireKeyed (ignoresCv_rawLoop loopRule_decBuf)

/-- The raw commands are none of those that write CV. -/
theorem raw_not_writes_cv {i : Instr} (hi : i ∈ [Instr.encBlk, .decBlk, .encBuf, .decBuf]) :
    i ∉ StateField.cvHi.writers :=
  (by decide : ∀ j ∈ [Instr.encBlk, .decBlk, .encBuf, .decBuf], j ∉ StateField.cvHi.writers) i hi

/-- Settles O26: the table of R72 says that CV is not written, `IgnoresCv` that it is not read. -/
theorem rawCommandsNeverTouchTheChainingValue : Obligations.RawCommandsNeverTouchTheChainingValue := by
  intro i hi s t a b ht
  obtain ⟨-, -, -, -, -, hcv, -⟩ := commandsWriteOnlyWhatTheTableLists i s t ht
  obtain ⟨hhi, hlo⟩ := hcv (raw_not_writes_cv hi)
  refine ⟨hhi, hlo, ?_⟩
  rw [← setCv_blockOf, ← setCv_blockOf]
  exact ignoresCv_exec_raw hi s t _ ht

/-! ## CBC_ENC_BLK and CBC_DEC_BLK (R173, R174) -/

/-- The chained block command that computes as the loop of `transform` and `chain` does. -/
def execChainedBlock (transform : State → Block → Block) (chain : State → Block → Block → State) (s : State) : Result :=
  requireKeyed s (finish (chain (s.setDout (transform s s.din)) s.din (transform s s.din)))

theorem exec_cbcEncBlk (s : State) : exec .cbcEncBlk s = execChainedBlock cbcEncrypt chainOutput s := rfl

theorem exec_cbcDecBlk (s : State) : exec .cbcDecBlk s = execChainedBlock cbcDecrypt chainInput s := rfl

/-- On a keyed core the output block goes to DOUT and the next chaining value to CV. -/
theorem LoopRule.execChainedBlock_keyed {transform : State → Block → Block} {chain : State → Block → Block → State}
    {out : Block → Block → Block} {nx : Block → Block → Block → Block} {s : State}
    (hr : LoopRule transform chain s.cipher out nx) (hk : s.life = .keyed) :
    execChainedBlock transform chain s =
      finish ((s.setDout (out s.cv s.din)).setCv (nx s.cv s.din (out s.cv s.din))) := by
  rw [execChainedBlock, requireKeyed_keyed hk, hr.transform_eq s _ rfl, hr.chain_eq]
  rfl

/-- Encrypt of the block DIN XOR CV, by halves. -/
theorem encryptBlock_din_xor_cv (c : CipherState) (s : State) :
    c.encryptBlock (s.din ^^^ s.cv) =
      blockOf (c.encrypt (s.dinHi ^^^ s.cvHi, s.dinLo ^^^ s.cvLo)).1
        (c.encrypt (s.dinHi ^^^ s.cvHi, s.dinLo ^^^ s.cvLo)).2 := by
  simp only [CipherState.encryptBlock, hi_xor, lo_xor, State.hi_din, State.lo_din, State.hi_cv, State.lo_cv]

theorem finish_setDout_setCv (s : State) (o cv : Block) :
    finish ((s.setDout o).setCv cv) = .next { s with
      doutHi := hi o, doutLo := lo o, cvHi := hi cv, cvLo := lo cv, err := 0 } := rfl

/-- Settles O42: DOUT and CV are both the encryption of DIN XOR CV. -/
theorem cbcEncBlkChains : Obligations.CbcEncBlkChains := by
  refine ⟨by decide, fun s => ⟨fun hk => ?_, exec_stateErrors (by decide) s⟩⟩
  rw [exec_cbcEncBlk, (loopRule_cbcEncBuf s.cipher).execChainedBlock_keyed hk, encryptBlock_din_xor_cv,
    finish_setDout_setCv, hi_blockOf, lo_blockOf]

/-- Settles O43: DOUT is the decryption of DIN, XORed with CV, and the next CV is DIN. -/
theorem cbcDecBlkChains : Obligations.CbcDecBlkChains := by
  refine ⟨by decide, fun s => ⟨fun hk => ?_, exec_stateErrors (by decide) s⟩⟩
  rw [exec_cbcDecBlk, (loopRule_cbcDecBuf s.cipher).execChainedBlock_keyed hk, finish_setDout_setCv, hi_xor, lo_xor,
    CipherState.decryptBlock, hi_blockOf, lo_blockOf]
  simp only [State.hi_din, State.lo_din, State.hi_cv, State.lo_cv]

/-! ## CBC_ENC_BUF and CBC_DEC_BUF (R175, R176) -/

/-- What a buffer command does on a keyed core, ending well and with a bus error. -/
theorem LoopRule.exec_buffer {transform : State → Block → Block} {chain : State → Block → Block → State}
    {out : Block → Block → Block} {nx : Block → Block → Block → Block} {s : State} {i : Instr}
    (hr : LoopRule transform chain s.cipher out nx)
    (hexec : exec i s = requireKeyed s (bufferLoop transform chain (wholeBlocks s.len) 0 s)) (hk : s.life = .keyed) :
    let a := afterBlocks out nx s
    let n := wholeBlocks s.len
    ((∀ j < n, BlockAdmitted s j) → exec i s = .next { s with
      mem := (a n).1, cvHi := hi (a n).2, cvLo := lo (a n).2, result := s.len - s.len % 8, err := 0 }) ∧
    ∀ k < n, ∀ f, BlockRefusedAt s k f → exec i s = .next { s with
      mem := (a k).1, cvHi := hi (a k).2, cvLo := lo (a k).2, result := blockOffset k, faddr := f, err := 0x07,
      sticky := true } := by
  refine ⟨fun h => ?_, fun k hlt f h => ?_⟩
  · rw [hr.exec_done hexec hk h, State.bufferEnd, blockOffset_wholeBlocks]
    rfl
  · rw [hr.exec_refused hexec hk hlt h]
    rfl

/-- Settles O46: the loop with Encrypt, chained by its output blocks. -/
theorem cbcEncBufGoesBlockByBlock : Obligations.CbcEncBufGoesBlockByBlock :=
  ⟨by decide, fun s => ⟨(loopRule_cbcEncBuf s.cipher).exec_buffer rfl, exec_stateErrors (by decide) s⟩⟩

/-- Settles O47: the loop with Decrypt, chained by its input blocks. -/
theorem cbcDecBufGoesBlockByBlock : Obligations.CbcDecBufGoesBlockByBlock :=
  ⟨by decide, fun s => ⟨(loopRule_cbcDecBuf s.cipher).exec_buffer rfl, exec_stateErrors (by decide) s⟩⟩

/-! ## A chained block command and one turn of the loop (R177) -/

/-- Each chained buffer command and the block command that computes as its loop does. -/
theorem exists_chainedRule {q : Instr × Instr}
    (hq : q ∈ [(Instr.cbcEncBlk, Instr.cbcEncBuf), (.cbcDecBlk, .cbcDecBuf)]) (c : CipherState) :
    ∃ transform chain out nx, LoopRule transform chain c out nx ∧
      (∀ s, exec q.1 s = execChainedBlock transform chain s) ∧
      ∀ s, exec q.2 s = requireKeyed s (bufferLoop transform chain (wholeBlocks s.len) 0 s) := by
  simp only [List.mem_cons, List.not_mem_nil, or_false] at hq
  obtain rfl | rfl := hq
  · exact ⟨_, _, _, _, loopRule_cbcEncBuf c, exec_cbcEncBlk, fun _ => rfl⟩
  · exact ⟨_, _, _, _, loopRule_cbcDecBuf c, exec_cbcDecBlk, fun _ => rfl⟩

theorem afterBlocks_one (out : Block → Block → Block) (nx : Block → Block → Block → Block) (s : State) :
    afterBlocks out nx s 1 =
      (s.mem.writeBlock s.dst (out s.cv (s.mem.readBlock s.src)),
        nx s.cv (s.mem.readBlock s.src) (out s.cv (s.mem.readBlock s.src))) := by
  have hzero (a : Word) : a + blockOffset 0 = a := BitVec.add_zero a
  simp only [afterBlocks, hzero]

/-- Settles O49: both compute the output block and the next chaining value from CV and the same block. -/
theorem chainedBlockIsOneTurnOfTheBuffer : Obligations.ChainedBlockIsOneTurnOfTheBuffer := by
  intro q hq s hk hm hlen hadm hdin
  obtain ⟨transform, chain, out, nx, hr, hblk, hbuf⟩ := exists_chainedRule hq s.cipher
  have hone : wholeBlocks s.len = 1 := by rw [hlen]; rfl
  have hall : ∀ j < wholeBlocks s.len, BlockAdmitted s j := by
    intro j hj
    obtain rfl : j = 0 := by omega
    exact hadm
  refine ⟨_, _, (hblk s).trans (hr.execChainedBlock_keyed hk), hr.exec_done (hbuf s) hk hall, ?_, ?_⟩
  · change (afterBlocks out nx s (wholeBlocks s.len)).1.readBlock s.dst = (s.setDout (out s.cv s.din)).dout
    rw [hone, afterBlocks_one, Memory.readBlock_writeBlock hm, State.dout_setDout, hdin]
  · change (s.atBlock out nx (wholeBlocks s.len)).cv =
      ((s.setDout (out s.cv s.din)).setCv (nx s.cv s.din (out s.cv s.din))).cv
    rw [hone, State.cv_atBlock, afterBlocks_one, State.cv_setCv, hdin]

/-! ## Splitting a chained stream (R177) -/

/-- The run begun in `t` goes on where the run begun in `s` has done its first `a` blocks. -/
structure Continues (out : Block → Block → Block) (nx : Block → Block → Block → Block) (s t : State) (a : Nat) :
    Prop where
  life   : t.life = s.life
  cipher : t.cipher = s.cipher
  faddr  : t.faddr = s.faddr
  sticky : t.sticky = s.sticky
  config : t.config = s.config
  src    : t.src = s.src + blockOffset a
  dst    : t.dst = s.dst + blockOffset a
  blocks : (t.mem, t.cv) = afterBlocks out nx s a

theorem blockOffset_add (a k : Nat) : blockOffset (a + k) = blockOffset a + blockOffset k := by
  rw [blockOffset, blockOffset, blockOffset, ← BitVec.ofNat_add, Nat.mul_add]

theorem add_blockOffset_add (x : Word) (a k : Nat) : x + blockOffset a + blockOffset k = x + blockOffset (a + k) := by
  rw [blockOffset_add, BitVec.add_assoc]

section
variable {out : Block → Block → Block} {nx : Block → Block → Block → Block} {s t : State} {a : Nat}
  (h : Continues out nx s t a)
include h

theorem Continues.afterBlocks_eq (k : Nat) : afterBlocks out nx t k = afterBlocks out nx s (a + k) := by
  induction k with
  | zero => exact h.blocks
  | succ k ih =>
    rw [← Nat.add_assoc, afterBlocks, afterBlocks, ih, h.src, h.dst, add_blockOffset_add, add_blockOffset_add]

theorem Continues.blockAdmitted_iff (k : Nat) : BlockAdmitted t k ↔ BlockAdmitted s (a + k) := by
  rw [BlockAdmitted, BlockAdmitted, h.config, h.src, h.dst, add_blockOffset_add, add_blockOffset_add]

/-- With the first `a` blocks admitted, so are the first `a + n` when those of the second run are. -/
theorem Continues.blocks_admitted (ha : ∀ j < a, BlockAdmitted s j) {n : Nat} (hn : ∀ j < n, BlockAdmitted t j) :
    ∀ j < a + n, BlockAdmitted s j := by
  intro j hj
  obtain hlt | ⟨k, rfl⟩ : j < a ∨ ∃ k, j = a + k := (lt_or_ge j a).imp_right Nat.exists_eq_add_of_le
  · exact ha j hlt
  · exact (h.blockAdmitted_iff k).1 (hn k (by omega))

theorem Continues.blockRefusedAt (ha : ∀ j < a, BlockAdmitted s j) {k : Nat} {f : Word} (hk : BlockRefusedAt t k f) :
    BlockRefusedAt s (a + k) f := by
  obtain ⟨hbefore, hat⟩ := hk
  rw [h.config, h.src, h.dst, add_blockOffset_add, add_blockOffset_add] at hat
  exact ⟨h.blocks_admitted ha hbefore, hat⟩

end

theorem wholeBlocks_blockOffset {n : Nat} (h : 8 * n < 2 ^ 32) : wholeBlocks (blockOffset n) = n := by
  rw [wholeBlocks, blockOffset, BitVec.toNat_ofNat, Nat.mod_eq_of_lt h, Nat.mul_div_cancel_left n (by decide)]

/-- A buffer command that ends with ERR zero ran on a keyed core, and every block was admitted. -/
theorem LoopRule.of_err_eq_zero {transform : State → Block → Block} {chain : State → Block → Block → State}
    {out : Block → Block → Block} {nx : Block → Block → Block → Block} {s t : State} {i : Instr}
    (hr : LoopRule transform chain s.cipher out nx)
    (hexec : exec i s = requireKeyed s (bufferLoop transform chain (wholeBlocks s.len) 0 s))
    (ht : exec i s = .next t) (herr : t.err = 0) :
    s.life = .keyed ∧ (∀ j < wholeBlocks s.len, BlockAdmitted s j) ∧ t = s.bufferEnd out nx := by
  obtain ⟨hk, -⟩ | ⟨e, -, he⟩ := requireKeyed_cases s (bufferLoop transform chain (wholeBlocks s.len) 0 s)
  · obtain h | ⟨k, hlt, f, h⟩ := blocks_admitted_or s (wholeBlocks s.len)
    · cases (hr.exec_done hexec hk h).symm.trans ht
      exact ⟨hk, h, rfl⟩
    · cases (hr.exec_refused hexec hk hlt h).symm.trans ht
      exact absurd herr (ErrorCause.code_ne_zero .busError)
  · cases (hexec.trans he).symm.trans ht
    exact absurd herr e.code_ne_zero

/-- The whole run and the one that continues it end alike, and the counts of bytes done add up. -/
theorem Continues.exec_agree {transform : State → Block → Block} {chain : State → Block → Block → State}
    {out : Block → Block → Block} {nx : Block → Block → Block → Block} {s t u w : State} {i : Instr} {a : Nat}
    (h : Continues out nx s t a) (hr : LoopRule transform chain s.cipher out nx)
    (hexec : ∀ s, exec i s = requireKeyed s (bufferLoop transform chain (wholeBlocks s.len) 0 s))
    (hk : s.life = .keyed) (ha : ∀ j < a, BlockAdmitted s j) (hlen : wholeBlocks s.len = a + wholeBlocks t.len)
    (hu : exec i t = .next u) (hw : exec i s = .next w) :
    w.mem = u.mem ∧ w.cvHi = u.cvHi ∧ w.cvLo = u.cvLo ∧ w.err = u.err ∧ w.faddr = u.faddr ∧ w.sticky = u.sticky ∧
      w.result = blockOffset a + u.result := by
  have hrt : LoopRule transform chain t.cipher out nx := h.cipher.symm ▸ hr
  have hkt : t.life = .keyed := h.life.trans hk
  obtain hn | ⟨k, hlt, f, hf⟩ := blocks_admitted_or t (wholeBlocks t.len)
  · have hall : ∀ j < wholeBlocks s.len, BlockAdmitted s j := hlen ▸ h.blocks_admitted ha hn
    cases (hrt.exec_done (hexec t) hkt hn).symm.trans hu
    cases (hr.exec_done (hexec s) hk hall).symm.trans hw
    rw [State.bufferEnd, State.bufferEnd, State.atBlock, State.atBlock, hlen, h.afterBlocks_eq]
    exact ⟨rfl, rfl, rfl, rfl, h.faddr.symm, h.sticky.symm, blockOffset_add a _⟩
  · have hat : a + k < wholeBlocks s.len := by omega
    cases (hrt.exec_refused (hexec t) hkt hlt hf).symm.trans hu
    cases (hr.exec_refused (hexec s) hk hat (h.blockRefusedAt ha hf)).symm.trans hw
    rw [State.atBlock, State.atBlock, h.afterBlocks_eq]
    exact ⟨rfl, rfl, rfl, rfl, rfl, rfl, blockOffset_add a k⟩

/-- The blocks do not depend on how many there are to do. -/
theorem afterBlocks_setLen (out : Block → Block → Block) (nx : Block → Block → Block → Block) (s : State) (l : Word)
    (k : Nat) : afterBlocks out nx { s with len := l } k = afterBlocks out nx s k := by
  induction k with
  | zero => rfl
  | succ k ih => rw [afterBlocks, afterBlocks, ih]

/-- A command over the first `a` blocks that ended well is continued from the addresses that follow them. -/
theorem continues_bufferEnd (out : Block → Block → Block) (nx : Block → Block → Block → Block) (s : State) {a : Nat}
    (h : wholeBlocks (blockOffset a) = a) (l : Word) :
    Continues out nx s
      { State.bufferEnd out nx { s with len := blockOffset a } with
        src := s.src + blockOffset a, dst := s.dst + blockOffset a, len := l } a := by
  refine ⟨rfl, rfl, rfl, rfl, rfl, rfl, rfl, ?_⟩
  rw [State.bufferEnd, h, ← afterBlocks_setLen out nx s (blockOffset a)]
  exact Prod.ext rfl (State.cv_atBlock _ out nx a)

/-- Settles O48: the first command leaves a state in which the second continues the whole run. -/
theorem chainedStreamsMayBeSplit : Obligations.ChainedStreamsMayBeSplit := by
  intro i hi s t u w a b hab hlen ht herr hu hw
  have hbuf : i ∈ bufferCommands := (by decide : [Instr.cbcEncBuf, .cbcDecBuf] ⊆ bufferCommands) hi
  obtain ⟨transform, chain, out, nx, hr, hexec⟩ := exists_loopRule hbuf s.cipher
  have hfirst : wholeBlocks (blockOffset a) = a := wholeBlocks_blockOffset (by omega)
  have hsecond : wholeBlocks (blockOffset b) = b := wholeBlocks_blockOffset (by omega)
  have hwhole : wholeBlocks s.len = a + wholeBlocks (blockOffset b) := by
    rw [hlen, hsecond]
    exact wholeBlocks_blockOffset hab
  obtain ⟨hk, hadm, rfl⟩ := LoopRule.of_err_eq_zero (s := { s with len := blockOffset a }) hr (hexec _) ht herr
  have ha : ∀ j < a, BlockAdmitted s j := fun j hj => hadm j (hfirst.symm ▸ hj)
  exact (continues_bufferEnd out nx s hfirst (blockOffset b)).exec_agree hr hexec hk ha hwhole hu hw

end Sys2Proof.Machine
end

section
/-! Proofs of the statements on the padding engine and the stream frame (spec 44_padding.md). Strict unpadding accepts
exactly the blocks that are `StrictlyPadded`, which PAD_BLK's blocks are. A frame is read back block by block: two cores
that are `Chained` alike stay so when one encrypts a block and the other decrypts what came out. -/

namespace Sys2Proof.Machine

/-! ## PAD_BLK (44_padding.md R200) -/

theorem toNat_ofNat_of_lt {w n : Nat} (h : n < 2 ^ w) : (BitVec.ofNat w n).toNat = n := by
  rw [BitVec.toNat_ofNat, Nat.mod_eq_of_lt h]

theorem toNat_byteOf_padBlock (b : Block) {c i : Nat} (hc : c ≤ 7) (hi : i < 8) :
    (byteOf (padBlock b c) i).toNat = if i < c then (byteOf b i).toNat else 8 - c := by
  rw [padBlock, byteOf_blockOfBytes _ hi]
  split
  · rfl
  · exact toNat_ofNat_of_lt (by omega)

/-- The pad count as a word, written with the difference of words and of numbers. -/
theorem eight_sub_len {len : Word} (h : len.toNat ≤ 7) : 8 - len = BitVec.ofNat 32 (8 - len.toNat) := by
  rw [← BitVec.ofNat_sub_ofNat_of_le _ _ len.isLt (by omega), BitVec.ofNat_toNat, BitVec.setWidth_eq]
  rfl

theorem exec_padBlk {s : State} (h : s.len.toNat ≤ 7) :
    exec .padBlk s =
      finish ((s.setDout (padBlock s.din s.len.toNat)).setResult (BitVec.ofNat 32 (8 - s.len.toNat))) := by
  change execPadBlk s = _
  rw [execPadBlk, if_neg (by omega), eight_sub_len h]

theorem exists_exec_padBlk {s : State} (h : s.len.toNat ≤ 7) :
    ∃ t, exec .padBlk s = .next t ∧ t.dout = padBlock s.din s.len.toNat ∧
      t.result = BitVec.ofNat 32 (8 - s.len.toNat) ∧ t.err = 0 :=
  ⟨_, exec_padBlk h, blockOf_hi_lo _, rfl, rfl⟩

theorem exec_padBlk_refused {s : State} (h : 7 < s.len.toNat) : exec .padBlk s = raise .badOperand s := if_pos h

/-- Settles O55: the padded block byte by byte, and the refused count. -/
theorem padBlkFillsWithTheCount : Obligations.PadBlkFillsWithTheCount :=
  ⟨by decide, fun s =>
    ⟨fun h => ⟨padBlock s.din s.len.toNat, exec_padBlk h, fun _ hi => toNat_byteOf_padBlock s.din h hi⟩,
      exec_padBlk_refused⟩⟩

/-! ## UNPAD_STRICT (R201) -/

/-- The blocks UNPAD_STRICT accepts: a pad count of at most 8, and that many trailing bytes equal to it. -/
def StrictlyPadded (b : Block) : Prop :=
  padCount b ≤ 8 ∧ ∀ i, 8 - padCount b ≤ i → i < 8 → (byteOf b i).toNat = padCount b

theorem trailingPad_iff (b : Block) {n : Nat} (hn : n ≤ 8) :
    trailingPad b n = true ↔ ∀ i, 8 - n ≤ i → i < 8 → (byteOf b i).toNat = n := by
  have hbyte : ∀ i, byteOf b i = BitVec.ofNat 8 n ↔ (byteOf b i).toNat = n := fun i => by
    rw [← BitVec.toNat_inj, toNat_ofNat_of_lt (by omega)]
  simp only [trailingPad, List.all_eq_true, List.mem_range, Bool.or_eq_true, decide_eq_true_eq, beq_iff_eq, hbyte]
  constructor
  · intro h i hlo hi
    exact (h i hi).resolve_left (by omega)
  · intro h i hi
    exact (lt_or_ge i (8 - n)).imp_right fun hlo => h i hlo hi

theorem exec_unpadStrict_padded {s : State} (h : StrictlyPadded s.din) :
    exec .unpadStrict s = finish (s.setResult (BitVec.ofNat 32 (8 - padCount s.din))) := by
  obtain ⟨hcount, htrail⟩ := h
  change execUnpadStrict s = _
  rw [execUnpadStrict, if_neg (by omega), if_pos ((trailingPad_iff _ hcount).2 htrail)]

theorem exec_unpadStrict_refused {s : State} (h : ¬ StrictlyPadded s.din) :
    exec .unpadStrict s = raise .invalidPadding s := by
  change execUnpadStrict s = _
  rw [execUnpadStrict]
  split
  · rfl
  · next hcount => exact if_neg fun htrail => h ⟨by omega, (trailingPad_iff _ (by omega)).1 htrail⟩

/-- Settles O56: the second clause's premise is that the block is not strictly padded. -/
theorem unpadStrictChecksEveryPadByte : Obligations.UnpadStrictChecksEveryPadByte := by
  refine ⟨by decide, fun s => ⟨exec_unpadStrict_padded, fun h => exec_unpadStrict_refused ?_⟩⟩
  rintro ⟨hcount, htrail⟩
  obtain hlarge | ⟨i, hlo, hi, hne⟩ := h
  · exact absurd hlarge (Nat.not_lt.2 hcount)
  · exact hne (htrail i hlo hi)

/-! ## UNPAD_LENIENT (R202) -/

theorem exec_unpadLenient (s : State) :
    exec .unpadLenient s = finish (s.setResult (BitVec.ofNat 32 (s.len.toNat - lenientCount s.din))) := rfl

/-- The pad count is the low byte of the block's right half. -/
theorem padCount_din (s : State) : padCount s.din = s.dinLo.toNat % 256 := by
  have hlo : s.dinLo.toNat = s.din.toNat % 2 ^ 32 := by
    rw [← State.lo_din, lo, BitVec.extractLsb'_toNat, Nat.shiftRight_zero]
  rw [hlo, padCount, byteOf, BitVec.extractLsb'_toNat]
  simp only [Nat.reduceMul, Nat.reduceSub, Nat.shiftRight_zero]
  omega

/-- A content length that is not negative is the difference of words. -/
theorem ofNat_sub_of_le {len : Word} {n : Nat} (h : n ≤ len.toNat) :
    BitVec.ofNat 32 (len.toNat - n) = len - BitVec.ofNat 32 n := by
  rw [← BitVec.ofNat_sub_ofNat_of_le _ _ (by omega) h, BitVec.ofNat_toNat, BitVec.setWidth_eq]

/-- Settles O57: the clamped count is `lenientCount`; a difference below zero is 0. -/
theorem unpadLenientClampsTheCount : Obligations.UnpadLenientClampsTheCount := by
  refine ⟨by decide, fun s => ?_⟩
  extract_lets n
  have hn : lenientCount s.din = n := by rw [lenientCount, padCount_din]
  rw [exec_unpadLenient, hn, finish_eq]
  by_cases h : n ≤ s.len.toNat
  · rw [if_pos h, ofNat_sub_of_le h]
    rfl
  · rw [if_neg h, Nat.sub_eq_zero_of_le (by omega)]
    rfl

/-! ## Unpadding undoes PAD_BLK (R203, R204) -/

section
variable (b : Block) {c : Nat} (hc : c ≤ 7)
include hc

theorem padCount_padBlock : padCount (padBlock b c) = 8 - c := by
  rw [padCount, toNat_byteOf_padBlock b hc (by omega), if_neg (by omega)]

theorem strictlyPadded_padBlock : StrictlyPadded (padBlock b c) := by
  rw [StrictlyPadded, padCount_padBlock b hc]
  refine ⟨by omega, fun i hlo hi => ?_⟩
  rw [toNat_byteOf_padBlock b hc hi, if_neg (by omega)]

theorem exec_unpadStrict_padBlock {s : State} (h : s.din = padBlock b c) :
    exec .unpadStrict s = finish (s.setResult (BitVec.ofNat 32 c)) := by
  have hcount : 8 - padCount s.din = c := by
    rw [h, padCount_padBlock b hc]
    omega
  rw [exec_unpadStrict_padded (h ▸ strictlyPadded_padBlock b hc), hcount]

theorem exec_unpadLenient_padBlock {s : State} (h : s.din = padBlock b c) (hlen : 8 ≤ s.len.toNat) :
    exec .unpadLenient s = finish (s.setResult (s.len - BitVec.ofNat 32 (8 - c))) := by
  have hcount : lenientCount s.din = 8 - c := by
    rw [h, lenientCount, padCount_padBlock b hc, if_neg (by omega)]
  rw [exec_unpadLenient, hcount, ofNat_sub_of_le (by omega)]

end

/-- Settles O58: DOUT is the padded block, and unpadding it gives its count back. -/
theorem unpaddingUndoesPadding : Obligations.UnpaddingUndoesPadding := by
  intro s len hs hlen
  obtain ⟨t, ht, hdout, hresult, herr⟩ := exists_exec_padBlk hs
  refine ⟨t, ht, ?_, ?_⟩
  · have hstrict := exec_unpadStrict_padBlock (s := { t with dinHi := t.doutHi, dinLo := t.doutLo }) s.din hs hdout
    rw [hstrict, BitVec.ofNat_toNat, BitVec.setWidth_eq, herr]
    rfl
  · have hlenient := exec_unpadLenient_padBlock (s := { t with dinHi := t.doutHi, dinLo := t.doutLo, len := len })
      s.din hs hdout hlen
    rw [hlenient, ← hresult, herr]
    rfl

/-! ## The length laws (R205) -/

/-- PAD_BLK's RESULT for a count below 8 is what is missing to a whole block. -/
theorem exists_exec_padBlk_result {s : State} {c : Nat} (hc : c < 8) (h : s.len = BitVec.ofNat 32 c) :
    ∃ t, exec .padBlk s = .next t ∧ t.result.toNat = 8 - c := by
  have hlen : s.len.toNat = c := by
    rw [h]
    exact toNat_ofNat_of_lt (by omega)
  obtain ⟨t, ht, -, hresult, -⟩ := exists_exec_padBlk (s := s) (by omega)
  exact ⟨t, ht, by rw [hresult, hlen, toNat_ofNat_of_lt (by omega)]⟩

/-- Settles O59: both laws are arithmetic on the pad count `8 - m mod 8`. -/
theorem frameLengthLaws : Obligations.FrameLengthLaws := by
  refine ⟨fun m s h => ?_, fun n s h => ?_⟩
  · obtain ⟨t, ht, hpad⟩ := exists_exec_padBlk_result (Nat.mod_lt m (by omega)) h
    exact ⟨t, ht, by omega, by omega⟩
  · obtain ⟨t, ht, hpad⟩ := exists_exec_padBlk_result (Nat.mod_lt (2 * n) (by omega)) h
    refine ⟨t, ht, by omega, hpad, ?_⟩
    simp only [List.mem_cons, List.not_mem_nil, or_false]
    omega

/-! ## Blocks as lists of bytes -/

@[simp] theorem length_bytesOf (b : Block) : (bytesOf b).length = 8 := by
  rw [bytesOf, List.length_map, List.length_range]

@[simp] theorem getElem_bytesOf (b : Block) (i : Nat) (h : i < (bytesOf b).length) : (bytesOf b)[i] = byteOf b i := by
  simp [bytesOf]

theorem byteOf_blockOfList {bs : List Byte} {i : Nat} (hi : i < 8) (h : i < bs.length) :
    byteOf (blockOfList bs) i = bs[i] := by
  rw [blockOfList, byteOf_blockOfBytes _ hi, List.getElem?_eq_getElem h, Option.getD_some]

/-- The first eight bytes of a list are the bytes of the block read from it. -/
theorem bytesOf_blockOfList {bs : List Byte} (h : 8 ≤ bs.length) : bytesOf (blockOfList bs) = bs.take 8 := by
  refine List.ext_getElem (by simp [h]) fun i hi _ => ?_
  rw [length_bytesOf] at hi
  rw [getElem_bytesOf, List.getElem_take, byteOf_blockOfList hi]

/-- The block read from a list that begins with a block's bytes is that block. -/
theorem blockOfList_bytesOf_append (b : Block) (tail : List Byte) : blockOfList (bytesOf b ++ tail) = b := by
  refine block_ext fun i hi => ?_
  have hlen : i < (bytesOf b).length := by rwa [length_bytesOf]
  rw [byteOf_blockOfList hi (List.length_append ▸ Nat.lt_add_right _ hlen), List.getElem_append_left hlen,
    getElem_bytesOf]

theorem blockOfList_bytesOf (b : Block) : blockOfList (bytesOf b) = b := by
  simpa using blockOfList_bytesOf_append b []

/-- Of a padded block, the data bytes are those that were padded. -/
theorem take_bytesOf_padBlock {tail : List Byte} (h : tail.length ≤ 7) :
    (bytesOf (padBlock (blockOfList tail) tail.length)).take tail.length = tail := by
  have hlen : ((bytesOf (padBlock (blockOfList tail) tail.length)).take tail.length).length = tail.length := by
    rw [List.length_take, length_bytesOf]
    omega
  refine List.ext_getElem hlen fun i _ hi => ?_
  rw [List.getElem_take, getElem_bytesOf, padBlock, byteOf_blockOfBytes _ (by omega), if_pos hi,
    byteOf_blockOfList (by omega) hi]

/-! ## A block through a chained command (R203 step 2, R204 step 2) -/

/-- A command that ends well passes the host's check of `STATUS.ERR`. -/
theorem issue_of_finish {i : Instr} {s u : State} (h : exec i s = finish u) : issue i s = some { u with err := 0 } := by
  rw [issue, h]
  rfl

/-- A core that is ready to chain the next block: keyed with the boxes `c`, at the chaining value `cv`. -/
structure Chained (c : CipherState) (cv : Block) (s : State) : Prop where
  life   : s.life = .keyed
  cipher : s.cipher = c
  cv     : s.cv = cv

theorem passBlock_chained {transform : State → Block → Block} {chain : State → Block → Block → State}
    {out : Block → Block → Block} {nx : Block → Block → Block → Block} {i : Instr} {c : CipherState} {cv : Block}
    {s : State} (hr : LoopRule transform chain c out nx) (hexec : ∀ s, exec i s = execChainedBlock transform chain s)
    (hs : Chained c cv s) (b : Block) :
    ∃ t, passBlock i b s = some (bytesOf (out cv b), t) ∧ t.dout = out cv b ∧ Chained c (nx cv b (out cv b)) t := by
  obtain ⟨hlife, rfl, rfl⟩ := hs
  have hdin : (s.putDin b).din = b := blockOf_hi_lo b
  have hrun := (hexec (s.putDin b)).trans (LoopRule.execChainedBlock_keyed (s := s.putDin b) hr hlife)
  rw [hdin] at hrun
  have hdout : ∀ o v : Block, ({ ((s.putDin b).setDout o).setCv v with err := 0 } : State).dout = o :=
    fun o _ => blockOf_hi_lo o
  refine ⟨_, ?_, hdout _ _, hlife, rfl, blockOf_hi_lo _⟩
  rw [passBlock, issue_of_finish hrun, Option.map_some, hdout]
  rfl

section
variable {c : CipherState} {cv : Block} {s r : State} (hs : Chained c cv s) (hr : Chained c cv r)
include hs hr

/-- One core encrypts a block, the other decrypts what came out: the block is back, and the two cores are chained alike
again. -/
theorem passBlock_roundTrip (b : Block) :
    ∃ o t u, passBlock .cbcEncBlk b s = some (bytesOf o, t) ∧ Chained c o t ∧
      passBlock .cbcDecBlk o r = some (bytesOf b, u) ∧ u.dout = b ∧ Chained c o u := by
  obtain ⟨t, ht, -, htc⟩ := passBlock_chained (loopRule_cbcEncBuf c) exec_cbcEncBlk hs b
  obtain ⟨u, hu, hdout, huc⟩ :=
    passBlock_chained (loopRule_cbcDecBuf c) exec_cbcDecBlk hr (c.encryptBlock (b ^^^ cv))
  have hback : c.decryptBlock (c.encryptBlock (b ^^^ cv)) ^^^ cv = b := (undoes_cbc c).out_out cv b
  rw [hback] at hu hdout
  exact ⟨_, t, u, ht, htc, hu, hdout, huc⟩

/-- The full groups of a frame: `n` blocks of ciphertext, which the other core reads back whatever follows them. -/
theorem passBlocks_roundTrip (n : Nat) {data : List Byte} (hn : 8 * n ≤ data.length) :
    ∃ body cv' t u, passBlocks .cbcEncBlk n data s = some (body, t) ∧ body.length = 8 * n ∧ Chained c cv' t ∧
      (∀ tail, passBlocks .cbcDecBlk n (body ++ tail) r = some (data.take (8 * n), u)) ∧ Chained c cv' u := by
  induction n generalizing data cv s r with
  | zero => exact ⟨[], cv, s, r, rfl, rfl, hs, fun _ => rfl, hr⟩
  | succ n ih =>
    obtain ⟨o, t₁, u₁, hfirst, ht₁, hback, -, hu₁⟩ := passBlock_roundTrip hs hr (blockOfList data)
    obtain ⟨body, cv', t, u, hrest, hlen, ht, hread, hu⟩ :=
      ih ht₁ hu₁ (data := data.drop 8) (by rw [List.length_drop]; omega)
    refine ⟨bytesOf o ++ body, cv', t, u, ?_, ?_, ht, fun tail => ?_, hu⟩
    · rw [passBlocks, hfirst, Option.bind_some, hrest]
      rfl
    · rw [List.length_append, length_bytesOf, hlen]
      omega
    · have hdrop : (bytesOf o ++ (body ++ tail)).drop 8 = body ++ tail := List.drop_left' (length_bytesOf o)
      have htake : data.take 8 ++ (data.drop 8).take (8 * n) = data.take (8 * (n + 1)) := by
        rw [Nat.mul_succ, Nat.add_comm, List.take_add]
      rw [List.append_assoc, passBlocks, blockOfList_bytesOf_append, hback, Option.bind_some, hdrop, hread,
        Option.map_some, bytesOf_blockOfList (by omega), htake]

end

theorem Chained.issue_padBlk {c : CipherState} {cv : Block} {s : State} (hs : Chained c cv s) (h : s.len.toNat ≤ 7) :
    ∃ t, issue .padBlk s = some t ∧ t.dout = padBlock s.din s.len.toNat ∧ Chained c cv t :=
  ⟨_, issue_of_finish (exec_padBlk h), blockOf_hi_lo _, hs.life, hs.cipher, hs.cv⟩

theorem issue_zeroize (s : State) : ∃ t, issue .zeroize s = some t ∧ t.life = .zeroized :=
  ⟨_, issue_of_finish rfl, rfl⟩

theorem issue_unpadStrict_padBlock (b : Block) {c : Nat} (hc : c ≤ 7) {s : State} (h : s.din = padBlock b c) :
    ∃ t, issue .unpadStrict s = some t ∧ t.result.toNat = c :=
  ⟨_, issue_of_finish (exec_unpadStrict_padBlock b hc h), toNat_ofNat_of_lt (w := 32) (by omega)⟩

/-- The last block of a frame: the writer pads and encrypts it and erases the cipher, the reader keeps the data bytes
(R203 steps 3 and 4, R204 step 3). -/
theorem closeFrame_openLast {c : CipherState} {cv : Block} {s r : State} (hs : Chained c cv s) (hr : Chained c cv r)
    {tail : List Byte} (h : tail.length ≤ 7) :
    ∃ o t u, closeFrame tail s = some (bytesOf o, t) ∧ t.life = .zeroized ∧
      openLast (bytesOf o) r = some (tail, u) := by
  have hlen : (BitVec.ofNat 32 tail.length).toNat = tail.length := toNat_ofNat_of_lt (by omega)
  have hready : Chained c cv { s.putDin (blockOfList tail) with len := BitVec.ofNat 32 tail.length } :=
    ⟨hs.life, hs.cipher, hs.cv⟩
  obtain ⟨padded, hpad, hdout, hpadded⟩ := hready.issue_padBlk (hlen.trans_le h)
  replace hdout : padded.dout = padBlock (blockOfList tail) tail.length :=
    hdout.trans (congrArg₂ padBlock (blockOf_hi_lo _) hlen)
  obtain ⟨o, t, u, henc, -, hdec, hplain, -⟩ := passBlock_roundTrip hpadded hr padded.dout
  obtain ⟨erased, hzero, herased⟩ := issue_zeroize t
  obtain ⟨checked, hunpad, hresult⟩ := issue_unpadStrict_padBlock (s := u.putDin u.dout) (blockOfList tail) h
    ((blockOf_hi_lo _).trans (hplain.trans hdout))
  refine ⟨o, erased, checked, ?_, herased, ?_⟩
  · rw [closeFrame, hpad, Option.bind_some, henc, Option.bind_some, hzero]
    rfl
  · rw [openLast, blockOfList_bytesOf, hdec, Option.bind_some, hunpad, Option.map_some, hresult, hdout,
      take_bytesOf_padBlock h]

/-! ## The whole frame (R203, R204, R205) -/

theorem chained_setCv {s : State} (h : s.life = .keyed) (iv : Block) : Chained s.cipher iv (s.setCv iv) :=
  ⟨h, rfl, s.cv_setCv iv⟩

/-- Settles O60: IV, full groups and last block, each read back as it was written. -/
theorem frameRoundTrip : Obligations.FrameRoundTrip := by
  intro s r iv data hs hr hcipher
  have hsc : Chained s.cipher iv (s.setCv iv) := chained_setCv hs iv
  have hrc : Chained s.cipher iv (r.setCv iv) := hcipher ▸ chained_setCv hr iv
  obtain ⟨body, cv, t₁, u₁, hbody, hlen, ht₁, hread, hu₁⟩ :=
    passBlocks_roundTrip hsc hrc (data.length / 8) (data := data) (by omega)
  obtain ⟨o, t, u, hclose, ht, hopen⟩ :=
    closeFrame_openLast ht₁ hu₁ (tail := data.drop (8 * (data.length / 8))) (by rw [List.length_drop]; omega)
  have hframe : (bytesOf iv ++ body ++ bytesOf o).length = 8 * (data.length / 8) + 16 := by
    simp only [List.length_append, length_bytesOf, hlen]
    omega
  refine ⟨bytesOf iv ++ body ++ bytesOf o, t, u, ?_, ?_, ?_, ht, ?_⟩
  · rw [writeFrame, hbody, Option.bind_some, hclose]
    rfl
  · rw [hframe]
    omega
  · rw [List.append_assoc]
    exact List.take_left' (length_bytesOf iv)
  · have hblocks : (8 * (data.length / 8) + 16) / 8 - 2 = data.length / 8 := by omega
    have hlast : (bytesOf iv ++ body ++ bytesOf o).drop (8 * (data.length / 8) + 16 - 8) = bytesOf o :=
      List.drop_left' (by rw [List.length_append, length_bytesOf, hlen]; omega)
    have hrest : (bytesOf iv ++ (body ++ bytesOf o)).drop 8 = body ++ bytesOf o := List.drop_left' (length_bytesOf iv)
    rw [readFrame, hframe, if_neg (by omega), hblocks, hlast, List.append_assoc, blockOfList_bytesOf_append, hrest,
      hread, Option.bind_some, hopen, Option.map_some, List.take_append_drop]

end Sys2Proof.Machine
end

section
/-! Proofs of the statements on errors (spec 60_exceptions.md). An access that is not well formed selects no register
(`select_of_not_accessWf`); a command that is neither KEYSCHED nor a buffer command ends well or raises with nothing
written before but FADDR (`finishesOrRaises_exec`). -/

namespace Sys2Proof.Machine

/-! ## Host-side faults (R224) -/

theorem accessWf_eq_false_iff {offset : Word} {width : Nat} :
    accessWf offset width = false ↔ width ≠ 32 ∨ offset.toNat % 4 ≠ 0 := by
  rw [accessWf, Bool.and_eq_false_iff, beq_eq_false_iff_ne, beq_eq_false_iff_ne]

/-- The window refuses every access that is not well formed. -/
theorem select_of_not_accessWf {c : Config} {addr : Word} {width : Nat} (hin : (addr - c.base).toNat < windowSize)
    (hwf : accessWf (addr - c.base) width = false) : select c addr width = .refused := by
  rw [select, if_pos hin, hwf]
  rfl

theorem hostRead_refused {s : State} {addr : Word} {width : Nat} (h : select s.config addr width = .refused) :
    hostRead addr width s = .next { s with reply := .busError } := by rw [hostRead, h]

/-- Settles O16: the access selects no register, and a refused write or read changes the reply alone. -/
theorem misshapenAccessIsRefused : Obligations.MisshapenAccessIsRefused := by
  intro s addr width v rest hin hshape
  have hsel : select s.config addr width = .refused := select_of_not_accessWf hin (accessWf_eq_false_iff.2 hshape)
  exact ⟨hostWrite_refused (s := { s with pending := rest }) hsel,
    hostRead_refused (s := { s with pending := rest }) hsel⟩

/-! ## Errors are precise (R222) -/

/-- A result of a command begun in `s` that ends well, or raises with nothing written before but FADDR. -/
inductive FinishesOrRaises (s : State) : Result → Prop where
  | well (u : State) : FinishesOrRaises s (finish u)
  | error (e : ErrorCause) : FinishesOrRaises s (raise e s)
  | busError (f : Word) : FinishesOrRaises s (raiseBusError f s)

theorem finishesOrRaises_requireKeyed (s u : State) : FinishesOrRaises s (requireKeyed s (finish u)) := by
  obtain ⟨-, h⟩ | ⟨e, -, h⟩ := requireKeyed_cases s (finish u)
  · rw [h]
    exact .well u
  · rw [h]
    exact .error e

theorem finishesOrRaises_cvLoad (s : State) : FinishesOrRaises s (exec .cvLoad s) := by
  obtain h | ⟨f, h⟩ := admitted_or_refused s.config s.src 8
  · exact exec_cvLoad_admitted h ▸ .well _
  · exact exec_cvLoad_refused h ▸ .busError f

theorem finishesOrRaises_cvStore (s : State) : FinishesOrRaises s (exec .cvStore s) := by
  obtain h | ⟨f, h⟩ := admitted_or_refused s.config s.dst 8
  · exact exec_cvStore_admitted h ▸ .well _
  · exact exec_cvStore_refused h ▸ .busError f

theorem finishesOrRaises_padBlk (s : State) : FinishesOrRaises s (exec .padBlk s) := by
  obtain h | h := Nat.lt_or_ge 7 s.len.toNat
  · exact exec_padBlk_refused h ▸ .error _
  · exact exec_padBlk h ▸ .well _

theorem finishesOrRaises_unpadStrict (s : State) : FinishesOrRaises s (exec .unpadStrict s) := by
  by_cases h : StrictlyPadded s.din
  · exact exec_unpadStrict_padded h ▸ .well _
  · exact exec_unpadStrict_refused h ▸ .error _

/-- KEYSCHED and the buffer commands apart, a command that raises has written nothing before. -/
theorem finishesOrRaises_exec {i : Instr} (hi : i ∉ Instr.keysched :: bufferCommands) (s : State) :
    FinishesOrRaises s (exec i s) := by
  cases i with
  | keysched | encBuf | decBuf | cbcEncBuf | cbcDecBuf => exact absurd (by decide) hi
  | nop | zeroize | unpadLenient => exact .well _
  | encBlk | decBlk | cbcEncBlk | cbcDecBlk | weakchk => exact finishesOrRaises_requireKeyed s _
  | cvLoad => exact finishesOrRaises_cvLoad s
  | cvStore => exact finishesOrRaises_cvStore s
  | padBlk => exact finishesOrRaises_padBlk s
  | unpadStrict => exact finishesOrRaises_unpadStrict s

/-- What the end leaves where it reports an error. -/
theorem FinishesOrRaises.eq_of_err_ne_zero {s t : State} (h : FinishesOrRaises s (.next t)) (he : t.err ≠ 0) :
    t = { s with err := t.err, sticky := true, faddr := t.faddr } := by
  generalize hr : Host.Outcome.next t = r at h
  cases h with
  | well => cases hr; exact absurd rfl he
  | error | busError => cases hr; rfl

theorem CipherState.wordAt_zero {w : Nat} (hw : w < 1042) : CipherState.zero.wordAt w = 0 := by
  obtain hp | ⟨b, k, hk, rfl⟩ := wordAt_position hw
  · rw [CipherState.wordAt_p _ w hp]
    exact CipherState.zero_p ⟨w, hp⟩
  · rw [CipherState.wordAt_s _ b k hk]
    exact CipherState.zero_s b ⟨k, hk⟩

/-- An error of KEYSCHED's own is `failKeysched`'s (40_key_schedule.md R106). -/
theorem exec_keysched_failed {s t : State} (h : exec .keysched s = .next t) (he : t.err ≠ 0) (hz : t.err ≠ 0x04) :
    ∃ e f, failKeysched e { s with faddr := f } = .next t := by
  change execKeysched s = .next t at h
  obtain ⟨-, hrun⟩ | ⟨-, ⟨e, f, -, hrun⟩ | ⟨kbuf, hrun⟩⟩ := execKeysched_cases s
  · cases hrun.symm.trans h
    exact absurd rfl hz
  · exact ⟨e, f, hrun.symm.trans h⟩
  · cases hrun.symm.trans h
    exact absurd rfl he

/-- A command that reports an error sets STICKY (10_state.md R25). -/
theorem exec_sticky_of_err_ne_zero {i : Instr} {s t : State} (h : exec i s = .next t) (he : t.err ≠ 0) :
    t.sticky = true := by
  obtain ⟨u, t', hrun, -, hend⟩ := endOf_exec i s
  cases hrun.symm.trans h
  exact hend.sticky_of_err he

/-- Settles O24: STICKY and FADDR by how any command ends, the frames by `finishesOrRaises_exec` and by
`failKeysched`. -/
theorem errorsChangeNothingElse : Obligations.ErrorsChangeNothingElse := by
  intro i s t hexec he
  obtain ⟨u, hwrites, hend⟩ := exists_writesOf hexec
  refine ⟨exec_sticky_of_err_ne_zero hexec he, fun hne => (hend.faddr_of_err_ne hne).trans hwrites.faddr, fun hi => ?_, ?_⟩
  · have hruns : FinishesOrRaises s (.next t) := hexec ▸ finishesOrRaises_exec hi s
    exact hruns.eq_of_err_ne_zero he
  · rintro rfl hz
    obtain ⟨e, f, hfail⟩ := exec_keysched_failed hexec he hz
    cases hfail
    exact ⟨fun w => CipherState.wordAt_zero, fun j => Vector.getElem_replicate j.isLt, rfl⟩

end Sys2Proof.Machine
end

section
/-! Proofs of the statements on reset (spec 70_reset_and_hazards.md). A buffer command that reset abandons after `m`
blocks leaves the memory of the same command run over a shorter `LEN`, and for memory a `LEN` counts by its whole blocks
alone (`exec_buffer_mem_setLen`). So the abandoned command may be compared with the one over any `LEN` of `min m n` whole
blocks, `n` being its own number (`abandonedMem_eq_exec`). -/

namespace Sys2Proof.Machine

/-! ## A buffer command's memory depends on LEN through the whole blocks (20_memory.md R65) -/

theorem wholeBlocks_cutLen (len : Word) (m : Nat) : wholeBlocks (cutLen len m) = min m (wholeBlocks len) := by
  rw [cutLen]
  split
  next h => exact (min_eq_right h).symm
  next h =>
    have hfits : 8 * wholeBlocks len ≤ 2 ^ 32 := eight_mul_wholeBlocks_le len
    have hm : 8 * m < 2 ^ 32 := by omega
    exact (wholeBlocks_blockOffset hm).trans (min_eq_left (by omega)).symm

/-- A command that needs a key stores nothing without one. -/
theorem exec_mem_of_not_keyed {i : Instr} (hi : i ∈ needsKey) {s t : State} (hk : s.life ≠ .keyed)
    (h : exec i s = .next t) : t.mem = s.mem := by
  obtain ⟨run, hexec⟩ := exec_eq_requireKeyed hi s
  obtain ⟨hkeyed, -⟩ | ⟨e, -, hraise⟩ := requireKeyed_cases s run
  · exact absurd hkeyed hk
  · cases (hexec.trans hraise).symm.trans h
    rfl

/-- The run with another `LEN` does the same blocks from the first on. -/
theorem continues_setLen (out : Block → Block → Block) (nx : Block → Block → Block → Block) (s : State) (l : Word) :
    Continues out nx s { s with len := l } 0 where
  life := rfl
  cipher := rfl
  faddr := rfl
  sticky := rfl
  config := rfl
  src := (BitVec.add_zero s.src).symm
  dst := (BitVec.add_zero s.dst).symm
  blocks := rfl

/-- With as many whole blocks in another `LEN`, a buffer command leaves the same memory. -/
theorem exec_buffer_mem_setLen {i : Instr} (hi : i ∈ bufferCommands) {s t u : State} {l : Word}
    (hl : wholeBlocks s.len = wholeBlocks l) (ht : exec i s = .next t) (hu : exec i { s with len := l } = .next u) :
    t.mem = u.mem := by
  by_cases hk : s.life = .keyed
  · obtain ⟨transform, chain, out, nx, hr, hexec⟩ := exists_loopRule hi s.cipher
    have hlen : wholeBlocks s.len = 0 + wholeBlocks l := by rw [hl, Nat.zero_add]
    exact ((continues_setLen out nx s l).exec_agree hr hexec hk nofun hlen hu ht).1
  · have hneeds : i ∈ needsKey := (by decide : bufferCommands ⊆ needsKey) hi
    have hu' : u.mem = s.mem := exec_mem_of_not_keyed (s := { s with len := l }) hneeds hk hu
    exact (exec_mem_of_not_keyed hneeds hk ht).trans hu'.symm

/-! ## What an abandoned command has written (R250) -/

theorem abandonedMem_of_not_storing {i : Instr} (hi : i ∉ Instr.cvStore :: bufferCommands) (m : Nat) (s : State) :
    abandonedMem i m s = s.mem := by
  cases i with
  | encBuf | decBuf | cbcEncBuf | cbcDecBuf | cvStore => exact absurd (by decide) hi
  | nop | keysched | encBlk | decBlk | weakchk | zeroize | cvLoad | cbcEncBlk | cbcDecBlk | padBlk | unpadStrict
  | unpadLenient => rfl

theorem abandonedMem_cvStore {m : Nat} (hm : 0 < m) {s u : State} (h : exec .cvStore s = .next u) :
    abandonedMem .cvStore m s = u.mem := by
  rw [abandonedMem, if_neg hm.ne', h]
  rfl

section
variable {i : Instr} (hi : i ∈ bufferCommands) (m : Nat) (s : State)
include hi

/-- An abandoned buffer command leaves the memory of the run with `LEN` cut. -/
theorem exists_exec_cutLen :
    ∃ t, exec i { s with len := cutLen s.len m } = .next t ∧ abandonedMem i m s = t.mem := by
  obtain ⟨-, t, hrun, -⟩ := endOf_exec i { s with len := cutLen s.len m }
  have hcut : abandonedMem i m s = memAfter s (exec i { s with len := cutLen s.len m }) := by
    simp only [bufferCommands, List.mem_cons, List.not_mem_nil, or_false] at hi
    obtain rfl | rfl | rfl | rfl := hi <;> rfl
  exact ⟨t, hrun, hcut.trans (congrArg (memAfter s) hrun)⟩

/-- And so the memory of the run with any `LEN` of that many whole blocks. -/
theorem abandonedMem_eq_exec {l : Word} (hl : wholeBlocks l = min m (wholeBlocks s.len)) {u : State}
    (hu : exec i { s with len := l } = .next u) : abandonedMem i m s = u.mem := by
  obtain ⟨t, ht, hmem⟩ := exists_exec_cutLen hi m s
  have hblocks : wholeBlocks (cutLen s.len m) = wholeBlocks l := (wholeBlocks_cutLen s.len m).trans hl.symm
  exact hmem.trans (exec_buffer_mem_setLen (s := { s with len := cutLen s.len m }) hi hblocks ht hu)

/-- It is as the first blocks left it, at most `m` of them. -/
theorem abandonedMem_eq_afterBlocks :
    ∃ out nx, ∃ k ≤ min m (wholeBlocks s.len), abandonedMem i m s = (afterBlocks out nx s k).1 := by
  obtain ⟨t, ht, hmem⟩ := exists_exec_cutLen hi m s
  obtain ⟨out, nx, k, hk, hblocks⟩ := exec_buffer_mem hi ht
  rw [afterBlocks_setLen] at hblocks
  exact ⟨out, nx, k, hk.trans_eq (wholeBlocks_cutLen s.len m), hmem.trans hblocks⟩

theorem read_abandonedMem_of_ne {x : Nat}
    (hx : ∀ j < 8 * min m (wholeBlocks s.len), x ≠ (s.dst + BitVec.ofNat 32 j).toNat) :
    Memory.read (abandonedMem i m s) x = Memory.read s.mem x := by
  obtain ⟨out, nx, k, hk, hmem⟩ := abandonedMem_eq_afterBlocks hi m s
  rw [hmem]
  exact read_afterBlocks_of_ne k fun j hj => hx j (by omega)

end

/-- A command abandoned before its first block has written nothing. -/
theorem abandonedMem_zero (i : Instr) (s : State) : abandonedMem i 0 s = s.mem := by
  by_cases hi : i ∈ Instr.cvStore :: bufferCommands
  · obtain rfl | hi := List.mem_cons.1 hi
    · rw [abandonedMem, if_pos rfl]
    · obtain ⟨out, nx, k, hk, hmem⟩ := abandonedMem_eq_afterBlocks hi 0 s
      obtain rfl : k = 0 := by omega
      exact hmem
  · exact abandonedMem_of_not_storing hi 0 s

/-! ## Reset during a command (R250, R252) -/

theorem resetDuring_atReset (v : Word) (m : Nat) (s : State) : (resetDuring v m s).AtReset := by
  unfold resetDuring
  split <;> exact State.resetCore_atReset _

theorem mem_resetDuring_of_decode {v : Word} {i : Instr} (h : decode v = .ok i) (m : Nat) (s : State) :
    (resetDuring v m s).mem = abandonedMem i m s := by
  rw [resetDuring, h]
  rfl

/-- Memory stays as it was unless the word is that of a command which has written something. -/
theorem mem_resetDuring_eq {v : Word} {m : Nat} {s : State} (h : ∀ i, decode v = .ok i → abandonedMem i m s = s.mem) :
    (resetDuring v m s).mem = s.mem := by
  cases hv : decode v with
  | error e =>
    rw [resetDuring, hv]
    rfl
  | ok i => exact (mem_resetDuring_of_decode hv m s).trans (h i hv)

/-- Settles O2: of a buffer command, each run the statement compares with has `min m n` whole blocks, as the abandoned
one has. -/
theorem resetDuringACommandKeepsWholeBlocks : Obligations.ResetDuringACommandKeepsWholeBlocks := by
  intro s v m rest
  refine ⟨resetDuring v m { s with pending := rest }, rfl, resetDuring_atReset v m _, ?zero, ?notStoring, ?cvStore,
    ?buffer⟩
  case zero =>
    rintro rfl
    exact mem_resetDuring_eq fun i _ => abandonedMem_zero i _
  case notStoring =>
    exact fun hv => mem_resetDuring_eq fun i hi => abandonedMem_of_not_storing (fun hmem => hv i hmem hi) m _
  case cvStore =>
    intro hv hm u hu
    exact (mem_resetDuring_of_decode hv m _).trans (abandonedMem_cvStore hm hu)
  case buffer =>
    intro i hi hv
    rw [mem_resetDuring_of_decode hv]
    refine ⟨fun u hle hu => ?_, fun u hle hu => ?_, fun x hx => ?_⟩
    · exact abandonedMem_eq_exec (l := s.len) hi m { s with pending := rest } (min_eq_right hle).symm hu
    · have hm : m ≤ wholeBlocks s.len := by
        rw [wholeBlocks]
        omega
      have hblocks : wholeBlocks (blockOffset m) = m := wholeBlocks_blockOffset (hle.trans_lt s.len.isLt)
      exact abandonedMem_eq_exec (l := blockOffset m) hi m { s with pending := rest }
        (hblocks.trans (min_eq_left hm).symm) hu
    · exact read_abandonedMem_of_ne hi m { s with pending := rest } hx

end Sys2Proof.Machine
end
